-- ==== Sys2Proof/Word.lean ====
section
/-! DEFINITION. The bit-vector types the block's registers, operands and words are made of. -/

namespace Sys2Proof

/-- One byte: a sensor register, a data byte, a command byte (20_memory.md R50, R54). -/
abbrev Byte := BitVec 8

/-- A 16-bit channel counter (10_state.md R27). -/
abbrev Half := BitVec 16

/-- A 32-bit command word or response DATA (30_encoding.md R80, R88). -/
abbrev Word := BitVec 32

/-- A sensor register offset, `w[20:16]`: 0x00-0x1F (20_memory.md R50; 30_encoding.md R92). -/
abbrev Offset := BitVec 5

end Sys2Proof
end

