-- ==== Sys2Proof/Config.lean ====
section
/-! DEFINITION. The implementation parameters of 00_scope.md R7: fixed for one block, not state. -/

namespace Sys2Proof.Config

/-- `BUS_ADDR`, the sensor's fixed 7-bit address (R7, R55). -/
abbrev busAddr : BitVec 7 := 0x29#7

/-- `CMD_BIT`, the bit that marks a byte as a register address (R7, R54). -/
abbrev cmdBit : Byte := 0x80#8

/-- `REG_SPACE`: the number of byte offsets, 0x00-0x1F (R7, R50). -/
abbrev regSpace : Nat := 0x20

/-- `BLKBUF_SIZE` (R7, R31). -/
abbrev blkbufSize : Nat := 32

/-- `DEFAULT_ATIME`, the integration time CONFIGD writes.
OPEN in the spec (R7, R126; 92 D19): a free value, log entry 9. Claims hold whatever it is. -/
opaque defaultAtime : Byte

/-- `DEFAULT_GAIN`, the gain CONFIGD writes.
OPEN in the spec (R7, R126; 92 D19): a free value, log entry 9. Claims hold whatever it is. -/
opaque defaultGain : Byte

end Sys2Proof.Config
end

