-- ==== Sys2Proof/Machine/State.lean ====
section
/-! DEFINITION. The state of the block (10_state.md R20-R38), the transport port's transactions (20_memory.md R56, R57), the
responses (30_encoding.md R88; 60_exceptions.md R201), and the state after reset (70_reset_and_hazards.md R220). Plain data. -/

namespace Sys2Proof.Machine

/-! ### Registers -/

/-- `STATE`, the DriverState (R21); its two-bit code is `DriverState.code`. -/
inductive DriverState where
  /-- 0: no bus resource held -/
  | uninitialized
  /-- 1: bus acquired and address claimed, sensor not yet configured -/
  | busOpen
  /-- 2: the four configuration writes succeeded -/
  | configured
  /-- 3: a configuration write failed, or a byte read failed under hard-fail -/
  | failed
deriving DecidableEq, Repr

/-- `HELD`, the bus resources the block holds (R23): bit 0 BUS, bit 1 ADDR. -/
structure Held where
  bus : Bool
  addr : Bool
deriving DecidableEq, Repr

/-- `HELD = 00`. -/
abbrev Held.none : Held := ⟨false, false⟩
/-- `HELD.BUS` alone: inside OPEN and TEARDOWN only. -/
abbrev Held.busOnly : Held := ⟨true, false⟩
/-- `HELD = 11`. -/
abbrev Held.both : Held := ⟨true, true⟩

/-- `RAW_C`, `RAW_R`, `RAW_G`, `RAW_B` (R27). -/
structure RawChannels where
  clear : Half
  red : Half
  green : Half
  blue : Half
deriving DecidableEq, Repr

/-- `Q_R`, `Q_G`, `Q_B`: the exact quotients (R28). -/
structure Quotients where
  red : BitVec 24
  green : BitVec 24
  blue : BitVec 24
deriving DecidableEq, Repr

/-- `N_R`, `N_G`, `N_B`: the NormalizedColor (R29). -/
structure NormalizedColor where
  red : Byte
  green : Byte
  blue : Byte
deriving DecidableEq, Repr

/-! ### The host's side of the command port -/

/-- STATUS (60_exceptions.md R201). The code 7 is reserved and never produced: it has no constructor. -/
inductive Status where
  | ok | busOpenError | busError | configStepError | notConfiguredError | stateError | illegalCommand
deriving DecidableEq, Repr

/-- A response: STATUS and DATA together (30_encoding.md R88). -/
structure Response where
  status : Status
  data : Word
deriving DecidableEq, Repr

/-! ### The transport port -/

/-- A transport transaction's request (20_memory.md R56). -/
inductive Request where
  /-- BW: `BusWriteByte(cmd, v)` -/
  | bw (cmd v : Byte)
  /-- BR: `BusReadByte(cmd)` -/
  | br (cmd : Byte)
  /-- WR: `BusReadWord(cmd)` -/
  | wr (cmd : Byte)
  /-- KR: `BusReadBlock(cmd, n)` -/
  | kr (cmd : Byte) (n : Nat)
  /-- ACQ: `BusAcquire()` -/
  | acq
  /-- CLAIM: `BusClaim(addr7)` -/
  | claim (addr : BitVec 7)
  /-- RELA: `BusReleaseAddr()` -/
  | rela
  /-- RELB: `BusReleaseBus()` -/
  | relb
deriving DecidableEq, Repr

/-- A transaction's answer (R57): `err`, or success with the bytes the transaction carries (none for a write or a
resource transaction). -/
inductive Answer where
  | err
  | ok (bytes : List Byte)
deriving DecidableEq, Repr

/-- One entry of the transaction log (R38). -/
structure Transaction where
  request : Request
  answer : Answer
deriving DecidableEq, Repr

/-- What the transport answers to whichever transaction comes next: `err`, or success with bytes `b0..b31`, of which a
transaction that carries `n` bytes takes the first `n` (R57, R75; no transaction carries more than 32, R85). An
unconstrained draw: log entry 3. -/
inductive Draw where
  | err
  | ok (bytes : Vector Byte 32)
deriving DecidableEq, Repr

/-! ### The sequencer position -/

/-- What the command that called `Fetch()` answers when its division is done (R141-R144). -/
inductive Report where
  | measure | queryRed | queryGreen | queryBlue
deriving DecidableEq, Repr

/-- What a 16-bit value that `Read16` returns is for (R102, R106, R140), with the channels fetched before it. -/
inductive Use16 where
  | rd16
  | clear (rep : Report)
  | red (rep : Report) (c : Half)
  | green (rep : Report) (c r : Half)
  | blue (rep : Report) (c r g : Half)
deriving DecidableEq, Repr

/-- The four configuration steps (41_lifecycle.md R124). -/
inductive CfgStep where
  | powerOn | adcEnable | integration | gain
deriving DecidableEq, Repr

/-- `step` of R36: the call in a command's pseudocode that waits for an answer, with the local variables that what
follows it still reads. Log entry 6. -/
inductive Wait where
  /-- WRREG's BW (R104) -/
  | writeByte (off : Offset) (data : Byte)
  /-- RD8's BR (R105) -/
  | readByte (off : Offset)
  /-- the first BR of a composed `Read16` (R102) -/
  | lowByte (use : Use16) (off : Offset)
  /-- the second BR of a composed `Read16`, `lo` known (R102) -/
  | highByte (use : Use16) (off : Offset) (lo : Byte)
  /-- the WR of a native `Read16` (R102) -/
  | nativeWord (use : Use16) (off : Offset)
  /-- RDBLK's KR (R107) -/
  | readBlock (off : Offset) (len : Byte)
  /-- the KR of a burst `Fetch` (R140) -/
  | burst (rep : Report)
  /-- OPEN's ACQ (R121) -/
  | acquire
  /-- OPEN's CLAIM (R121) -/
  | claim
  /-- OPEN's RELB, the rollback (R121, R122) -/
  | rollback
  /-- a BW of `ConfigSeq` (R123) -/
  | configWrite (step : CfgStep) (atime gain : Byte)
  /-- TEARDOWN's RELA (R127) -/
  | releaseAddr
  /-- TEARDOWN's RELB, with the mask so far (R127) -/
  | releaseBus (m : Word)
deriving DecidableEq, Repr

/-- The sequencer position (R36). `cmd` is the command word in progress; `txn` counts the transactions issued so far, the
outstanding one included (00_scope.md R9). -/
inductive Seq where
  | idle
  | busy (cmd : Word) (step : Wait) (txn : Nat)
deriving DecidableEq, Repr

/-! ### The state -/

/-- The architectural state of R20, the sequencer position (R36), the transaction log (R38), and, as scripts, what the
host and the transport are going to do (log entries 2, 4 and 5). -/
@[ext]
structure State where
  /-- `STATE` (R21) -/
  state : DriverState
  /-- `HELD` (R23) -/
  held : Held
  /-- `CTRL` (R25): bit 0 HARDFAIL, bit 1 W16, bit 2 BURST -/
  ctrl : Byte
  /-- `RAW_C`, `RAW_R`, `RAW_G`, `RAW_B` (R27) -/
  raw : RawChannels
  /-- `Q_R`, `Q_G`, `Q_B` (R28) -/
  q : Quotients
  /-- `N_R`, `N_G`, `N_B` (R29) -/
  n : NormalizedColor
  /-- `OVF` (R30): bit 0 R, bit 1 G, bit 2 B -/
  ovf : BitVec 3
  /-- `BLKBUF[0..31]` (R31) -/
  blkbuf : Vector Byte 32
  /-- the sequencer position (R36) -/
  seq : Seq
  /-- the transaction log, oldest first (R38) -/
  log : List Transaction
  /-- the words the host presents, the first one on the port now (R71, R228; log entry 4) -/
  commands : List Word
  /-- the answers the transport is going to give, in order (R75; log entry 2) -/
  draws : List Draw
  /-- the responses the host has received, oldest first (R88; log entry 5) -/
  responses : List Response
deriving DecidableEq, Repr

/-- Why the machine stops with a fault. No constructor: the block has no trap (60_exceptions.md R200, R210), every error is the
STATUS of a response, and the spec gives every command an effect for every answer (20_memory.md R57). Log entry 12: safe,
since nothing is left out by it. -/
inductive Fault : Type
deriving DecidableEq, Repr

/-- Why an instruction has no meaning. -/
inductive Refusal where
  /-- raised by an arm of `exec` whose instruction is not modelled yet; safe. No arm does at present. -/
  | notModelled (mnemonic : String)
deriving DecidableEq, Repr

/-- The machine right after reset (R220). The scripts of host and transport are empty and no response has been given:
DESIGN CHOICE, log entries 2, 4 and 5. -/
def State.reset : State where
  state := .uninitialized
  held := .none
  ctrl := 0x00#8
  raw := ⟨0#16, 0#16, 0#16, 0#16⟩
  q := ⟨0#24, 0#24, 0#24⟩
  n := ⟨0#8, 0#8, 0#8⟩
  ovf := 0#3
  blkbuf := Vector.replicate 32 0#8
  seq := .idle
  log := []
  commands := []
  draws := []
  responses := []

end Sys2Proof.Machine
end

