-- ==== Sys2Proof/Machine/Flags.lean ====
section
/-! DEFINITION. The normalising divider and the one flag register OVF (43_divider.md R160-R163; 10_state.md R30). -/

namespace Sys2Proof.Machine

/-- `floor(raw × 255 / c)`, and 0 under the zero guard (R160, R162). On naturals; it fits in 24 bits (R161). -/
def quotient (c raw : Half) : BitVec 24 :=
  if c = 0#16 then 0#24 else BitVec.ofNat 24 (raw.toNat * 255 / c.toNat)

/-- `min(q, 255)`, eight bits (R160, R163). -/
def saturate (q : BitVec 24) : Byte := BitVec.ofNat 8 (min q.toNat 255)

/-- `q > 255` (R160, R163). -/
def overflows (q : BitVec 24) : Bool := decide (255 < q.toNat)

/-- The three quotients of a RAW snapshot (R160). -/
def RawChannels.quotients (r : RawChannels) : Quotients where
  red := quotient r.clear r.red
  green := quotient r.clear r.green
  blue := quotient r.clear r.blue

/-- The three saturated outputs (R160). -/
def Quotients.saturated (q : Quotients) : NormalizedColor where
  red := saturate q.red
  green := saturate q.green
  blue := saturate q.blue

/-- OVF: bit 0 R, bit 1 G, bit 2 B (R30, R160). -/
def Quotients.flags (q : Quotients) : BitVec 3 :=
  BitVec.ofBool (overflows q.blue) ++ BitVec.ofBool (overflows q.green) ++ BitVec.ofBool (overflows q.red)

/-- `Divide()` (R160): reads RAW, writes Q, N and OVF. -/
def State.divide (s : State) : State :=
  { s with q := s.raw.quotients, n := s.raw.quotients.saturated, ovf := s.raw.quotients.flags }

end Sys2Proof.Machine
end

