-- ==== Sys2Proof/Syntax.lean ====
section
/-! DEFINITION. The sixteen commands, one constructor for each row of spec/opcode_table.json. -/

namespace Sys2Proof

/-- The operand `ch` of LDRAW, two bits: 0 clear, 1 red, 2 green, 3 blue (30_encoding.md R92). -/
inductive Channel where
  | clear | red | green | blue
deriving DecidableEq, Repr

/-- A host command with its operands (30_encoding.md R82, R83, R92). -/
inductive Instr where
  /-- WRREG off, data: write one sensor register (R104). -/
  | wrreg (off : Offset) (data : Byte)
  /-- RD8 off: read one sensor register (R105). -/
  | rd8 (off : Offset)
  /-- RD16 off: read a 16-bit little-endian register pair (R106). -/
  | rd16 (off : Offset)
  /-- RDBLK off, len: read `len` contiguous sensor registers into BLKBUF (R107). -/
  | rdblk (off : Offset) (len : Byte)
  /-- OPEN: acquire the bus and claim the sensor address (R121). -/
  | openBus
  /-- CONFIG atime, gain: the four configuration writes (R123). -/
  | config (atime gain : Byte)
  /-- CONFIGD: CONFIG with the default parameters (R126). -/
  | configd
  /-- TEARDOWN: release all resources (R127). -/
  | teardown
  /-- MEASURE: refresh all four channels and normalise (R141). -/
  | measure
  /-- QUERYR: refresh, normalise, answer red (R142). -/
  | queryr
  /-- QUERYG: refresh, normalise, answer green (R143). -/
  | queryg
  /-- QUERYB: refresh, normalise, answer blue (R144). -/
  | queryb
  /-- LDRAW ch, value: inject one raw channel (R165). -/
  | ldraw (ch : Channel) (value : Half)
  /-- NORM: divide what RAW holds (R166). -/
  | norm
  /-- SETCTRL ctl: write the control register (R180). -/
  | setctrl (ctl : BitVec 3)
  /-- GETR idx: read one internal register (R181). -/
  | getr (idx : Byte)
deriving DecidableEq, Repr

end Sys2Proof
end

