-- ==== Sys2Proof/WellFormed.lean ====
section
/-! DEFINITION. The operand checks of 30_encoding.md R85. Everything else a command's fields could hold wrong is
ruled out by the operands' widths (the masks of R83). -/

namespace Sys2Proof

/-- A 16-bit read also touches `off + 1`, which must be a register (R85). -/
abbrev pairInRange (off : Offset) : Prop := off.toNat + 1 < Config.regSpace

/-- A block read is not empty and stays in the register space (R85). -/
abbrev blockInRange (off : Offset) (len : Byte) : Prop :=
  1 ≤ len.toNat ∧ off.toNat + len.toNat ≤ Config.regSpace

/-- The indices of 10_state.md R32 that are not reserved (R85). -/
abbrev indexDefined (idx : Byte) : Prop :=
  idx.toNat ≤ 0x09 ∨ (0x10 ≤ idx.toNat ∧ idx.toNat ≤ 0x2F)

/-- The operand checks beyond the mask (R85), one arm for each command. -/
def Instr.wellFormed : Instr → Bool
  | .wrreg _ _ => true
  | .rd8 _ => true
  | .rd16 off => decide (pairInRange off)
  | .rdblk off len => decide (blockInRange off len)
  | .openBus => true
  | .config _ _ => true
  | .configd => true
  | .teardown => true
  | .measure => true
  | .queryr => true
  | .queryg => true
  | .queryb => true
  | .ldraw _ _ => true
  | .norm => true
  | .setctrl _ => true
  | .getr idx => decide (indexDefined idx)

end Sys2Proof
end

