-- ==== Sys2Proof/Decode.lean ====
section
/-! DEFINITION. Decoding a command word, total on every 32-bit word (30_encoding.md R84), and the encoder written from the
same formats (R82). -/

namespace Sys2Proof

/-! ### Operand fields (30_encoding.md R80, R92) -/

/-- OP, `w[31:24]`. -/
def opField (w : Word) : Byte := w.extractLsb' 24 8
/-- `off`, `w[20:16]`. -/
def offField (w : Word) : Offset := w.extractLsb' 16 5
/-- `w[7:0]`: `data`, `len` or `gain`. -/
def lowField (w : Word) : Byte := w.extractLsb' 0 8
/-- `w[15:8]`: `atime`. -/
def midField (w : Word) : Byte := w.extractLsb' 8 8
/-- `value`, `w[15:0]`. -/
def valueField (w : Word) : Half := w.extractLsb' 0 16
/-- `ch`, `w[17:16]`. -/
def chField (w : Word) : BitVec 2 := w.extractLsb' 16 2
/-- `ctl`, `w[2:0]`. -/
def ctlField (w : Word) : BitVec 3 := w.extractLsb' 0 3
/-- `idx`, `w[23:16]`. -/
def idxField (w : Word) : Byte := w.extractLsb' 16 8

/-- The channel a two-bit `ch` names (R92). -/
def channelOf (ch : BitVec 2) : Channel :=
  if ch = 0#2 then .clear else if ch = 1#2 then .red else if ch = 2#2 then .green else .blue

/-- The two bits that name a channel (R92). -/
def channelBits : Channel → BitVec 2
  | .clear => 0#2
  | .red => 1#2
  | .green => 2#2
  | .blue => 3#2

/-! ### The opcode map (30_encoding.md R83) -/

/-- One row of the opcode map: a word `w` is this row's when `w &&& mask = value`; `operands` takes the fields of R82. -/
structure Row where
  mnemonic : String
  value : Word
  mask : Word
  operands : Word → Instr

def transactorRows : List Row :=
  [ ⟨"WRREG", 0x01000000#32, 0xFFE0FF00#32, fun w => .wrreg (offField w) (lowField w)⟩,
    ⟨"RD8", 0x02000000#32, 0xFFE0FFFF#32, fun w => .rd8 (offField w)⟩,
    ⟨"RD16", 0x03000000#32, 0xFFE0FFFF#32, fun w => .rd16 (offField w)⟩,
    ⟨"RDBLK", 0x04000000#32, 0xFFE0FF00#32, fun w => .rdblk (offField w) (lowField w)⟩ ]

def lifecycleRows : List Row :=
  [ ⟨"OPEN", 0x10000000#32, 0xFFFFFFFF#32, fun _ => .openBus⟩,
    ⟨"CONFIG", 0x11000000#32, 0xFFFF0000#32, fun w => .config (midField w) (lowField w)⟩,
    ⟨"CONFIGD", 0x12000000#32, 0xFFFFFFFF#32, fun _ => .configd⟩,
    ⟨"TEARDOWN", 0x13000000#32, 0xFFFFFFFF#32, fun _ => .teardown⟩ ]

def measureRows : List Row :=
  [ ⟨"MEASURE", 0x20000000#32, 0xFFFFFFFF#32, fun _ => .measure⟩,
    ⟨"QUERYR", 0x21000000#32, 0xFFFFFFFF#32, fun _ => .queryr⟩,
    ⟨"QUERYG", 0x22000000#32, 0xFFFFFFFF#32, fun _ => .queryg⟩,
    ⟨"QUERYB", 0x23000000#32, 0xFFFFFFFF#32, fun _ => .queryb⟩ ]

def registerRows : List Row :=
  [ ⟨"LDRAW", 0x30000000#32, 0xFFFC0000#32, fun w => .ldraw (channelOf (chField w)) (valueField w)⟩,
    ⟨"NORM", 0x31000000#32, 0xFFFFFFFF#32, fun _ => .norm⟩,
    ⟨"SETCTRL", 0x40000000#32, 0xFFFFFFF8#32, fun w => .setctrl (ctlField w)⟩,
    ⟨"GETR", 0x41000000#32, 0xFF00FFFF#32, fun w => .getr (idxField w)⟩ ]

/-- The sixteen rows of R83, in its order. -/
def rows : List Row := transactorRows ++ lifecycleRows ++ measureRows ++ registerRows

/-- `(w & row.mask) = row.match` (R84). -/
def Row.covers (r : Row) (w : Word) : Bool := w &&& r.mask == r.value

/-! ### Decoding (30_encoding.md R84) -/

/-- Why a word is IllegalCommand (60_exceptions.md R207). All three are answered alike. -/
inductive Illegal where
  /-- OP is none of R83's (R86). -/
  | reservedOpcode
  /-- OP is listed, and a must-be-zero bit is one (R84). -/
  | mustBeZero
  /-- the operand check of R85 fails. -/
  | operandRange
deriving DecidableEq, Repr

/-- `decode` of R84. It reads no state. -/
def decode (w : Word) : Except Illegal Instr :=
  match rows.find? (fun r => r.covers w) with
  | none =>
    if rows.any (fun r => opField r.value == opField w) then .error .mustBeZero else .error .reservedOpcode
  | some r => if (r.operands w).wellFormed then .ok (r.operands w) else .error .operandRange

/-- The decoder on a row's bits as spec/opcode_table.json numbers them. The block sees a command as one 32-bit value, so no
byte order enters (R89, log entry 13). -/
def decodeTableWord (nbits w : Nat) : Option Instr :=
  match decode (BitVec.ofNat 32 (w % 2 ^ nbits)) with
  | .ok i => some i
  | .error _ => none

/-! ### Encoding (30_encoding.md R82, R83) -/

/-- The command word of an instruction: OP, then the fields of its format from bit 23 down. -/
def encode : Instr → Word
  | .wrreg off data => 0x01#8 ++ 0#3 ++ off ++ 0#8 ++ data
  | .rd8 off => 0x02#8 ++ 0#3 ++ off ++ 0#16
  | .rd16 off => 0x03#8 ++ 0#3 ++ off ++ 0#16
  | .rdblk off len => 0x04#8 ++ 0#3 ++ off ++ 0#8 ++ len
  | .openBus => 0x10#8 ++ 0#24
  | .config atime gain => 0x11#8 ++ 0#8 ++ atime ++ gain
  | .configd => 0x12#8 ++ 0#24
  | .teardown => 0x13#8 ++ 0#24
  | .measure => 0x20#8 ++ 0#24
  | .queryr => 0x21#8 ++ 0#24
  | .queryg => 0x22#8 ++ 0#24
  | .queryb => 0x23#8 ++ 0#24
  | .ldraw ch value => 0x30#8 ++ 0#6 ++ channelBits ch ++ value
  | .norm => 0x31#8 ++ 0#24
  | .setctrl ctl => 0x40#8 ++ 0#16 ++ 0#5 ++ ctl
  | .getr idx => 0x41#8 ++ idx ++ 0#16

/-- The OP byte of an instruction (R83). -/
def Instr.opcode : Instr → Byte
  | .wrreg _ _ => 0x01#8
  | .rd8 _ => 0x02#8
  | .rd16 _ => 0x03#8
  | .rdblk _ _ => 0x04#8
  | .openBus => 0x10#8
  | .config _ _ => 0x11#8
  | .configd => 0x12#8
  | .teardown => 0x13#8
  | .measure => 0x20#8
  | .queryr => 0x21#8
  | .queryg => 0x22#8
  | .queryb => 0x23#8
  | .ldraw _ _ => 0x30#8
  | .norm => 0x31#8
  | .setctrl _ => 0x40#8
  | .getr _ => 0x41#8

end Sys2Proof
end

