-- ==== Sys2Proof/Machine/Operands.lean ====
section
/-! DEFINITION. How operands reach the sensor register space and the block's own registers: offsets and command bytes, little-endian
assembly, register codes, the packed words and the index map. -/

namespace Sys2Proof.Machine

/-! ### The sensor register space (20_memory.md R51, R54, R59) -/

/-- ENABLE (R51). -/
def enableOff : Offset := 0x00#5
/-- ATIME (R51). -/
def atimeOff : Offset := 0x01#5
/-- CONTROL (R51). -/
def controlOff : Offset := 0x0F#5
/-- CDATA low (R51). -/
def cdataOff : Offset := 0x14#5
/-- RDATA low (R51). -/
def rdataOff : Offset := 0x16#5
/-- GDATA low (R51). -/
def gdataOff : Offset := 0x18#5
/-- BDATA low (R51). -/
def bdataOff : Offset := 0x1A#5

/-- PON, ENABLE bit 0 (R52). -/
def ponBit : Byte := 0x01#8
/-- AEN, ENABLE bit 1 (R52). -/
def aenBit : Byte := 0x02#8

/-- Command-byte framing, `0x80 | a` (R54). -/
def commandByte (off : Offset) : Byte := Config.cmdBit ||| off.setWidth 8

/-- Little-endian assembly, `lo | (hi << 8)` (R59). -/
def assemble16 (lo hi : Byte) : Half := lo.setWidth 16 ||| hi.setWidth 16 <<< 8

/-! ### Transactions (20_memory.md R56, R57) -/

/-- How many bytes a success answer to a request carries (R57). -/
def Request.answerBytes : Request → Nat
  | .bw _ _ => 0
  | .br _ => 1
  | .wr _ => 2
  | .kr _ n => n
  | .acq => 0
  | .claim _ => 0
  | .rela => 0
  | .relb => 0

/-- The answer a draw gives to a request (R57). -/
def Draw.answer (d : Draw) (r : Request) : Answer :=
  match d with
  | .err => .err
  | .ok bytes => .ok (bytes.toList.take r.answerBytes)

/-! ### The configuration sequence (41_lifecycle.md R123, R124) -/

/-- The step's number k (R124). -/
def CfgStep.number : CfgStep → Nat
  | .powerOn => 1
  | .adcEnable => 2
  | .integration => 3
  | .gain => 4

/-- The register a step writes (R124). -/
def CfgStep.offset : CfgStep → Offset
  | .powerOn => enableOff
  | .adcEnable => enableOff
  | .integration => atimeOff
  | .gain => controlOff

/-- The value a step writes (R124). -/
def CfgStep.value (atime gain : Byte) : CfgStep → Byte
  | .powerOn => ponBit
  | .adcEnable => ponBit ||| aenBit
  | .integration => atime
  | .gain => gain

/-- The step after a step; none after the fourth (R123). -/
def CfgStep.next : CfgStep → Option CfgStep
  | .powerOn => some .adcEnable
  | .adcEnable => some .integration
  | .integration => some .gain
  | .gain => none

/-- The transaction that a position of the sequencer has issued and not yet seen answered (R36, R37). -/
def Wait.request : Wait → Request
  | .writeByte off data => .bw (commandByte off) data
  | .readByte off => .br (commandByte off)
  | .lowByte _ off => .br (commandByte off)
  | .highByte _ off _ => .br (commandByte (off + 1#5))
  | .nativeWord _ off => .wr (commandByte off)
  | .readBlock off len => .kr (commandByte off) len.toNat
  | .burst _ => .kr (commandByte cdataOff) 8
  | .acquire => .acq
  | .claim => .claim Config.busAddr
  | .rollback => .relb
  | .configWrite k atime gain => .bw (commandByte k.offset) (k.value atime gain)
  | .releaseAddr => .rela
  | .releaseBus _ => .relb

/-! ### Register codes and the control bits (10_state.md R21, R23, R25) -/

/-- The two-bit value of STATE (R21). -/
def DriverState.code : DriverState → BitVec 2
  | .uninitialized => 0#2
  | .busOpen => 1#2
  | .configured => 2#2
  | .failed => 3#2

/-- The two-bit value of HELD: bit 0 BUS, bit 1 ADDR (R23). -/
def Held.bits (h : Held) : BitVec 2 := BitVec.ofBool h.addr ++ BitVec.ofBool h.bus

/-- The three-bit STATUS code (60_exceptions.md R201). -/
def Status.code : Status → BitVec 3
  | .ok => 0#3
  | .busOpenError => 1#3
  | .busError => 2#3
  | .configStepError => 3#3
  | .notConfiguredError => 4#3
  | .stateError => 5#3
  | .illegalCommand => 6#3

/-- `CTRL.HARDFAIL` (R25). -/
def State.hardFail (s : State) : Bool := s.ctrl.getLsbD 0
/-- `CTRL.W16` (R25). -/
def State.w16 (s : State) : Bool := s.ctrl.getLsbD 1
/-- `CTRL.BURST` (R25). -/
def State.burst (s : State) : Bool := s.ctrl.getLsbD 2

/-! ### The packed words and the index map (10_state.md R32-R34) -/

/-- The STAT word (R33). -/
def State.statWord (s : State) : Word :=
  0#21 ++ s.ovf ++ 0#1 ++ s.ctrl.extractLsb' 0 3 ++ s.held.bits ++ s.state.code

/-- The NORM word, `zext_32(N_R | N_G << 8 | N_B << 16)` (R34). -/
def State.normWord (s : State) : Word :=
  s.n.red.setWidth 32 ||| s.n.green.setWidth 32 <<< 8 ||| s.n.blue.setWidth 32 <<< 16

/-- The register at an index, as DATA gives it; none for a reserved index (R32). -/
def State.readIndex (s : State) (idx : Byte) : Option Word :=
  match idx.toNat with
  | 0x00 => some s.statWord
  | 0x01 => some (s.ctrl.setWidth 32)
  | 0x02 => some (s.raw.clear.setWidth 32)
  | 0x03 => some (s.raw.red.setWidth 32)
  | 0x04 => some (s.raw.green.setWidth 32)
  | 0x05 => some (s.raw.blue.setWidth 32)
  | 0x06 => some (s.q.red.setWidth 32)
  | 0x07 => some (s.q.green.setWidth 32)
  | 0x08 => some (s.q.blue.setWidth 32)
  | 0x09 => some s.normWord
  | i => if 0x10 ≤ i then (s.blkbuf[i - 0x10]?).map (fun b => b.setWidth 32) else none

/-- RAW with the register `ch` names replaced (43_divider.md R165). -/
def RawChannels.set (r : RawChannels) (ch : Channel) (v : Half) : RawChannels :=
  match ch with
  | .clear => { r with clear := v }
  | .red => { r with red := v }
  | .green => { r with green := v }
  | .blue => { r with blue := v }

/-- The block buffer with consecutive entries from `i` on replaced (40_transactor.md R107). -/
def storeBytes (buf : Vector Byte 32) (i : Nat) : List Byte → Vector Byte 32
  | [] => buf
  | b :: bs => storeBytes (buf.setIfInBounds i b) (i + 1) bs

end Sys2Proof.Machine
end

