-- ==== Sys2Proof/Machine/Ops.lean ====
section
/-! DEFINITION. The shared operations of the pseudocode (00_scope.md R9): ending a command with a response, raising an error,
issuing a transaction and logging its answer, and the writes that more than one command makes. -/

namespace Sys2Proof.Machine

/-- End the command with a response; the block is idle again (R9, R36; 30_encoding.md R88). -/
def State.respond (s : State) (status : Status) (data : Word) : State :=
  { s with seq := .idle, responses := s.responses ++ [⟨status, data⟩] }

/-- `raise E(d)` (R9): the command ends with the error as its response. The block has no trap, no vector and no saved
context, and what was written before stays written (60_exceptions.md R200), so this IS its taking of an exception; no return
from one exists (R210). -/
def State.raise (s : State) (error : Status) (data : Word) : State := s.respond error data

/-- Issue a transaction: the sequencer waits for its answer at `step` (R9, R36, R37). -/
def State.issue (s : State) (cmd : Word) (step : Wait) (txn : Nat) : State :=
  { s with seq := .busy cmd step txn }

/-- Append an answered transaction to the log (R38). -/
def State.record (s : State) (r : Request) (d : Draw) : State :=
  { s with log := s.log ++ [⟨r, d.answer r⟩] }

/-- Write STATE. -/
def State.setState (s : State) (st : DriverState) : State := { s with state := st }

/-- Write HELD. -/
def State.setHeld (s : State) (h : Held) : State := { s with held := h }

/-- Write all four RAW registers (42_measure.md R145). -/
def State.setRaw (s : State) (r : RawChannels) : State := { s with raw := r }

/-- Write CTRL (44_control.md R180). -/
def State.setCtrl (s : State) (c : Byte) : State := { s with ctrl := c }

/-- Write `BLKBUF[0..]` (40_transactor.md R107). -/
def State.setBlock (s : State) (bytes : List Byte) : State := { s with blkbuf := storeBytes s.blkbuf 0 bytes }

/-- A count as DATA. -/
def dataOf (k : Nat) : Word := BitVec.ofNat 32 k

/-- A failed BR: the hard-fail policy, then BusError (40_transactor.md R103). -/
def State.byteReadError (s : State) (txn : Nat) : State :=
  (if s.hardFail then s.setState .failed else s).raise .busError (dataOf txn)

/-- A failed BW, WR or KR outside CONFIG: BusError, and nothing else changes (60_exceptions.md R203). -/
def State.busErrorAt (s : State) (txn : Nat) : State := s.raise .busError (dataOf txn)

/-- The transactor's admission check, `STATE ∈ {BusOpen, Configured}` (40_transactor.md R101). -/
def State.handleOpen (s : State) : Bool := s.state == .busOpen || s.state == .configured

/-- IllegalCommand with DATA = 0: no transaction, no state change (30_encoding.md R84-R86; 60_exceptions.md R207). -/
def State.illegal (s : State) : State := s.raise .illegalCommand 0#32

/-- What the transport is going to answer (log entry 2). -/
def State.setDraws (s : State) (ds : List Draw) : State := { s with draws := ds }

/-- What the host is going to present (log entry 4). -/
def State.setCommands (s : State) (ws : List Word) : State := { s with commands := ws }

/-- The command word on the port, and the state with it taken (20_memory.md R71; 70_reset_and_hazards.md R228). -/
def State.takeCommand (s : State) : Option (Word × State) :=
  match s.commands with
  | [] => none
  | w :: ws => some (w, s.setCommands ws)

/-- Power-on of a block that was running (70_reset_and_hazards.md R220, R221): every piece of state takes its reset value and no
transaction is issued. What host and transport are going to do is not the block's to reset. -/
def State.powerOn (s : State) : State :=
  { State.reset with commands := s.commands, draws := s.draws, responses := s.responses }

end Sys2Proof.Machine
end

