-- ==== Sys2Proof/Machine/Control.lean ====
section
/-! DEFINITION. The control commands SETCTRL and GETR (44_control.md R180, R181). Neither issues a transaction. -/

namespace Sys2Proof.Machine

/-- SETCTRL (R180): bits 7:3 stay 0 (10_state.md R26). -/
def execSetctrl (ctl : BitVec 3) (s : State) : Host.Outcome State Fault Refusal :=
  .next ((s.setCtrl (ctl.setWidth 8)).respond .ok 0#32)

/-- GETR (R181). A reserved index is IllegalCommand (R85; 10_state.md R32); the decoder has refused it already (log entry
10). -/
def execGetr (idx : Byte) (s : State) : Host.Outcome State Fault Refusal :=
  .next (match s.readIndex idx with
    | some v => s.respond .ok v
    | none => s.illegal)

end Sys2Proof.Machine
end

