-- ==== Sys2Proof/Machine/Divider.lean ====
section
/-! DEFINITION. The divider's own commands LDRAW and NORM (43_divider.md R165, R166). Neither issues a transaction. -/

namespace Sys2Proof.Machine

/-- LDRAW (R165). -/
def execLdraw (ch : Channel) (value : Half) (s : State) : Host.Outcome State Fault Refusal :=
  .next ((s.setRaw (s.raw.set ch value)).respond .ok 0#32)

/-- NORM (R166). -/
def execNorm (s : State) : Host.Outcome State Fault Refusal :=
  .next (s.divide.respond .ok s.divide.normWord)

end Sys2Proof.Machine
end

