-- ==== Sys2Proof/Machine/Sequencer.lean ====
section
/-! DEFINITION. The sequencer: what each command does when the transaction it waits on is answered, and the run of a command
through the answers the transport gives. Each function below is the part of a command's pseudocode between one
transaction's answer and the next transaction or the response; `s` already has the answered transaction in its log. -/

namespace Sys2Proof.Machine

/-! ### Transactor (40_transactor.md) -/

/-- WRREG after its BW (R104). -/
def State.afterWriteByte (s : State) (txn : Nat) (d : Draw) : State :=
  match d with
  | .err => s.busErrorAt txn
  | .ok _ => s.respond .ok 0#32

/-- RD8 after its BR (R103, R105). -/
def State.afterReadByte (s : State) (txn : Nat) (d : Draw) : State :=
  match d with
  | .err => s.byteReadError txn
  | .ok bytes => s.respond .ok (bytes[0].setWidth 32)

/-- `Read16(a)`: the first transaction of the strategy CTRL.W16 selects (R102). -/
def State.beginRead16 (s : State) (cmd : Word) (use : Use16) (off : Offset) (txn : Nat) : State :=
  if s.w16 then s.issue cmd (.nativeWord use off) txn else s.issue cmd (.lowByte use off) txn

/-- RDBLK after its KR (R107). -/
def State.afterReadBlock (s : State) (len : Byte) (txn : Nat) (d : Draw) : State :=
  match d with
  | .err => s.busErrorAt txn
  | .ok bytes => (s.setBlock (bytes.toList.take len.toNat)).respond .ok (len.setWidth 32)

/-! ### The four-channel fetch (42_measure.md) -/

/-- The DATA a MEASURE or QUERY answers (R141-R144). -/
def Report.data (rep : Report) (s : State) : Word :=
  match rep with
  | .measure => s.normWord
  | .queryRed => s.n.red.setWidth 32
  | .queryGreen => s.n.green.setWidth 32
  | .queryBlue => s.n.blue.setWidth 32

/-- The four channels are fetched: RAW, then the division, then the response (R141, R145). -/
def State.finishFetch (s : State) (rep : Report) (snapshot : RawChannels) : State :=
  (s.setRaw snapshot).divide.respond .ok (rep.data (s.setRaw snapshot).divide)

/-- `Fetch()`: the first transaction of the strategy CTRL selects (R140). -/
def State.beginFetch (s : State) (cmd : Word) (rep : Report) : State :=
  if s.burst then s.issue cmd (.burst rep) 1 else s.beginRead16 cmd (.clear rep) cdataOff 1

/-- A burst `Fetch()` after its KR: bytes 0-1 clear, 2-3 red, 4-5 green, 6-7 blue (20_memory.md R62; R140). -/
def State.afterBurst (s : State) (rep : Report) (txn : Nat) (d : Draw) : State :=
  match d with
  | .err => s.busErrorAt txn
  | .ok b =>
    s.finishFetch rep
      ⟨assemble16 b[0] b[1], assemble16 b[2] b[3], assemble16 b[4] b[5], assemble16 b[6] b[7]⟩

/-- What follows a 16-bit value that `Read16` returned: RD16's response, or the next channel of `Fetch()` in the order
clear, red, green, blue (R106, R140). -/
def State.deliver16 (s : State) (cmd : Word) (use : Use16) (v : Half) (txn : Nat) : State :=
  match use with
  | .rd16 => s.respond .ok (v.setWidth 32)
  | .clear rep => s.beginRead16 cmd (.red rep v) rdataOff (txn + 1)
  | .red rep c => s.beginRead16 cmd (.green rep c v) gdataOff (txn + 1)
  | .green rep c r => s.beginRead16 cmd (.blue rep c r v) bdataOff (txn + 1)
  | .blue rep c r g => s.finishFetch rep ⟨c, r, g, v⟩

/-- A composed `Read16` after its first BR: the second only if it succeeded (20_memory.md R60; R102, R103). -/
def State.afterLowByte (s : State) (cmd : Word) (use : Use16) (off : Offset) (txn : Nat) (d : Draw) : State :=
  match d with
  | .err => s.byteReadError txn
  | .ok bytes => s.issue cmd (.highByte use off bytes[0]) (txn + 1)

/-- A composed `Read16` after its second BR (R102, R103). -/
def State.afterHighByte (s : State) (cmd : Word) (use : Use16) (lo : Byte) (txn : Nat) (d : Draw) : State :=
  match d with
  | .err => s.byteReadError txn
  | .ok bytes => s.deliver16 cmd use (assemble16 lo bytes[0]) txn

/-- A native `Read16` after its WR; the hard-fail policy does not apply (20_memory.md R61; R102, R103). -/
def State.afterNativeWord (s : State) (cmd : Word) (use : Use16) (txn : Nat) (d : Draw) : State :=
  match d with
  | .err => s.busErrorAt txn
  | .ok bytes => s.deliver16 cmd use (assemble16 bytes[0] bytes[1]) txn

/-! ### Lifecycle (41_lifecycle.md) -/

/-- OPEN after its ACQ (R121). -/
def State.afterAcquire (s : State) (cmd : Word) (txn : Nat) (d : Draw) : State :=
  match d with
  | .err => s.raise .busOpenError 1#32
  | .ok _ => (s.setHeld { s.held with bus := true }).issue cmd .claim (txn + 1)

/-- OPEN after its CLAIM: success, or the rollback of what was acquired (R121, R122). -/
def State.afterClaim (s : State) (cmd : Word) (txn : Nat) (d : Draw) : State :=
  match d with
  | .err => s.issue cmd .rollback (txn + 1)
  | .ok _ => ((s.setHeld { s.held with addr := true }).setState .busOpen).respond .ok 0#32

/-- OPEN after the rollback's RELB: the original error, with bit 8 set if the release failed too (R121, R122). -/
def State.afterRollback (s : State) (d : Draw) : State :=
  match d with
  | .err => (s.setHeld { s.held with bus := false }).raise .busOpenError 0x102#32
  | .ok _ => (s.setHeld { s.held with bus := false }).raise .busOpenError 2#32

/-- `ConfigSeq`, from its admission check to the write of step 1 (R123). -/
def State.beginConfig (s : State) (cmd : Word) (atime gain : Byte) : State :=
  if s.state = .busOpen then s.issue cmd (.configWrite .powerOn atime gain) 1 else s.raise .stateError 0#32

/-- `ConfigSeq` after the write of step k: Failed, the next step, or Configured (R123, R125). -/
def State.afterConfigWrite (s : State) (cmd : Word) (k : CfgStep) (atime gain : Byte) (txn : Nat) (d : Draw) : State :=
  match d with
  | .err => (s.setState .failed).raise .configStepError (dataOf k.number)
  | .ok _ =>
    match k.next with
    | some k' => s.issue cmd (.configWrite k' atime gain) (txn + 1)
    | none => (s.setState .configured).respond .ok 0#32

/-- The end of TEARDOWN (R127). -/
def State.finishTeardown (s : State) (m : Word) : State := (s.setState .uninitialized).respond .ok m

/-- TEARDOWN from `if HELD.BUS = 1` on (R127). -/
def State.teardownBus (s : State) (cmd : Word) (m : Word) (txn : Nat) : State :=
  if s.held.bus then s.issue cmd (.releaseBus m) txn else s.finishTeardown m

/-- TEARDOWN from `if HELD.ADDR = 1` on (R127). -/
def State.beginTeardown (s : State) (cmd : Word) : State :=
  if s.held.addr then s.issue cmd .releaseAddr 1 else s.teardownBus cmd 0#32 1

/-- TEARDOWN after its RELA: a failure is noted and does not stop it (R127, R128). -/
def State.afterReleaseAddr (s : State) (cmd : Word) (txn : Nat) (d : Draw) : State :=
  match d with
  | .err => (s.setHeld { s.held with addr := false }).teardownBus cmd 0x1#32 (txn + 1)
  | .ok _ => (s.setHeld { s.held with addr := false }).teardownBus cmd 0x0#32 (txn + 1)

/-- TEARDOWN after its RELB (R127, R128). -/
def State.afterReleaseBus (s : State) (m : Word) (d : Draw) : State :=
  match d with
  | .err => (s.setHeld { s.held with bus := false }).finishTeardown (m ||| 0x2#32)
  | .ok _ => (s.setHeld { s.held with bus := false }).finishTeardown m

/-! ### The run of a command -/

/-- What follows an answer, by the position that waited for it. -/
def State.after (s : State) (cmd : Word) (step : Wait) (txn : Nat) (d : Draw) : State :=
  match step with
  | .writeByte _ _ => s.afterWriteByte txn d
  | .readByte _ => s.afterReadByte txn d
  | .lowByte use off => s.afterLowByte cmd use off txn d
  | .highByte use _ lo => s.afterHighByte cmd use lo txn d
  | .nativeWord use _ => s.afterNativeWord cmd use txn d
  | .readBlock _ len => s.afterReadBlock len txn d
  | .burst rep => s.afterBurst rep txn d
  | .acquire => s.afterAcquire cmd txn d
  | .claim => s.afterClaim cmd txn d
  | .rollback => s.afterRollback d
  | .configWrite k atime gain => s.afterConfigWrite cmd k atime gain txn d
  | .releaseAddr => s.afterReleaseAddr cmd txn d
  | .releaseBus m => s.afterReleaseBus m d

/-- One answer: the transaction is logged, and the command goes on to its next transaction or its response. An idle block
has no transaction outstanding and takes no answer (R36-R38, R68). -/
def State.answered (s : State) (d : Draw) : State :=
  match s.seq with
  | .idle => s
  | .busy cmd step txn => (s.record step.request d).after cmd step txn d

/-- Hand the coming answers `ds` to the block for as long as it waits for one; what it does not take stays with the
transport. A block still busy when they end waits (R37, R68; 70_reset_and_hazards.md R229). -/
def State.run (s : State) : List Draw → State
  | [] => s.setDraws []
  | d :: ds =>
    match s.seq with
    | .idle => s.setDraws (d :: ds)
    | .busy _ _ _ => (s.answered d).run ds

/-- Run the command in progress through the answers that are there. -/
def State.settle (s : State) : State := s.run s.draws

end Sys2Proof.Machine
end

