-- ==== Sys2Proof/Machine/Lifecycle.lean ====
section
/-! DEFINITION. The lifecycle commands OPEN, CONFIG, CONFIGD, TEARDOWN (41_lifecycle.md R120-R130). Each meaning is the
command's pseudocode up to its first transaction; what follows each answer stands in Machine/Sequencer.lean. -/

namespace Sys2Proof.Machine

/-- OPEN (R121). -/
def execOpen (s : State) : Host.Outcome State Fault Refusal :=
  .next (if s.state = .uninitialized then (s.issue (encode .openBus) .acquire 1).settle
    else s.raise .stateError 0#32)

/-- CONFIG (R123). -/
def execConfig (atime gain : Byte) (s : State) : Host.Outcome State Fault Refusal :=
  .next (s.beginConfig (encode (.config atime gain)) atime gain).settle

/-- CONFIGD: `ConfigSeq` with the default parameters, whose values are open (R126; log entry 9). -/
def execConfigd (s : State) : Host.Outcome State Fault Refusal :=
  .next (s.beginConfig (encode .configd) Config.defaultAtime Config.defaultGain).settle

/-- TEARDOWN (R127). -/
def execTeardown (s : State) : Host.Outcome State Fault Refusal :=
  .next (s.beginTeardown (encode .teardown)).settle

end Sys2Proof.Machine
end

