-- ==== Sys2Proof/Machine/Measure.lean ====
section
/-! DEFINITION. The measurement and query commands MEASURE, QUERYR, QUERYG, QUERYB (42_measure.md R140-R147). Each meaning is
the command's pseudocode up to its first transaction; what follows each answer stands in Machine/Sequencer.lean. -/

namespace Sys2Proof.Machine

/-- The admission check and `Fetch()` of a MEASURE or QUERY (R141, R147). -/
def State.measureAs (s : State) (i : Instr) (rep : Report) : State :=
  if s.state = .configured then (s.beginFetch (encode i) rep).settle else s.raise .notConfiguredError 0#32

/-- MEASURE (R141). -/
def execMeasure (s : State) : Host.Outcome State Fault Refusal := .next (s.measureAs .measure .measure)

/-- QUERYR (R142). -/
def execQueryr (s : State) : Host.Outcome State Fault Refusal := .next (s.measureAs .queryr .queryRed)

/-- QUERYG (R143). -/
def execQueryg (s : State) : Host.Outcome State Fault Refusal := .next (s.measureAs .queryg .queryGreen)

/-- QUERYB (R144). -/
def execQueryb (s : State) : Host.Outcome State Fault Refusal := .next (s.measureAs .queryb .queryBlue)

end Sys2Proof.Machine
end

