-- ==== Sys2Proof/Machine/Transactor.lean ====
section
/-! DEFINITION. The transactor commands WRREG, RD8, RD16, RDBLK (40_transactor.md R100-R107). Each meaning is the command's
pseudocode up to its first transaction; what follows each answer stands in Machine/Sequencer.lean. -/

namespace Sys2Proof.Machine

/-- WRREG (R104). -/
def execWrreg (off : Offset) (data : Byte) (s : State) : Host.Outcome State Fault Refusal :=
  .next (if s.handleOpen then (s.issue (encode (.wrreg off data)) (.writeByte off data) 1).settle
    else s.raise .stateError 0#32)

/-- RD8 (R105). -/
def execRd8 (off : Offset) (s : State) : Host.Outcome State Fault Refusal :=
  .next (if s.handleOpen then (s.issue (encode (.rd8 off)) (.readByte off) 1).settle
    else s.raise .stateError 0#32)

/-- RD16 (R106). The operand check comes first (R85, R208); the decoder has made it already (log entry 10). -/
def execRd16 (off : Offset) (s : State) : Host.Outcome State Fault Refusal :=
  .next (if ¬ pairInRange off then s.illegal
    else if s.handleOpen then (s.beginRead16 (encode (.rd16 off)) .rd16 off 1).settle
    else s.raise .stateError 0#32)

/-- RDBLK (R107). The operand check comes first (R85, R208); the decoder has made it already (log entry 10). -/
def execRdblk (off : Offset) (len : Byte) (s : State) : Host.Outcome State Fault Refusal :=
  .next (if ¬ blockInRange off len then s.illegal
    else if s.handleOpen then (s.issue (encode (.rdblk off len)) (.readBlock off len) 1).settle
    else s.raise .stateError 0#32)

end Sys2Proof.Machine
end

