-- ==== Sys2Proof/Machine/Dispatch.lean ====
section
/-! DEFINITION. One arm for each command of spec/opcode_table.json, each a direct call of its meaning. -/

namespace Sys2Proof.Machine

def exec (i : Instr) (s : State) : Host.Outcome State Fault Refusal :=
  match i with
  | .wrreg off data => Sys2Proof.Machine.execWrreg off data s
  | .rd8 off => Sys2Proof.Machine.execRd8 off s
  | .rd16 off => Sys2Proof.Machine.execRd16 off s
  | .rdblk off len => Sys2Proof.Machine.execRdblk off len s
  | .openBus => Sys2Proof.Machine.execOpen s
  | .config atime gain => Sys2Proof.Machine.execConfig atime gain s
  | .configd => Sys2Proof.Machine.execConfigd s
  | .teardown => Sys2Proof.Machine.execTeardown s
  | .measure => Sys2Proof.Machine.execMeasure s
  | .queryr => Sys2Proof.Machine.execQueryr s
  | .queryg => Sys2Proof.Machine.execQueryg s
  | .queryb => Sys2Proof.Machine.execQueryb s
  | .ldraw ch value => Sys2Proof.Machine.execLdraw ch value s
  | .norm => Sys2Proof.Machine.execNorm s
  | .setctrl ctl => Sys2Proof.Machine.execSetctrl ctl s
  | .getr idx => Sys2Proof.Machine.execGetr idx s

end Sys2Proof.Machine
end

