-- ==== Sys2Proof/Machine/Step.lean ====
section
/-! DEFINITION. One step of the block: an idle block takes the word on the command port and runs it; a busy block goes on with
the command in progress (70_reset_and_hazards.md R222, R228, R229). -/

namespace Sys2Proof.Machine

/-- Decode a command word and run it; a word that decodes to no command is IllegalCommand, in every state (30_encoding.md R84;
60_exceptions.md R207, R208). -/
def runWord (w : Word) (s : State) : Host.Outcome State Fault Refusal :=
  match decode w with
  | .ok i => exec i s
  | .error _ => .next s.illegal

/-- A busy block takes the answers the transport has for it and no command (R37, R228); without an answer it waits (R229). An
idle block takes the word on the port; without one it waits (R222). Log entries 1 and 8. -/
def step (s : State) : Host.Outcome State Fault Refusal :=
  match s.seq with
  | .busy _ _ _ => .next s.settle
  | .idle =>
    match s.takeCommand with
    | none => .next s
    | some (w, s') => runWord w s'

/-- `s` with the table's word `w` on the command port and the block idle, so that the next step runs it. A word that the
host was going to present comes after it. Log entries 4 and 13. -/
def State.withFetchWord (s : State) (nbits w : Nat) : State :=
  { s with seq := .idle, commands := BitVec.ofNat 32 (w % 2 ^ nbits) :: s.commands }

end Sys2Proof.Machine
end

