-- ==== Sys2Proof/Machine/Assembler.lean ====
section
/-! DEFINITION. The assembly text and the pseudo-instructions of 30_encoding.md R90 and R91. No part of the block: it says which
word a line of a host program stands for. Points the spec leaves open are in log entry 15. -/

namespace Sys2Proof.Machine

/-! ### Pseudo-instructions (R91) -/

inductive Pseudo where
  | pon | ponaen | poff
  | setatime (x : Byte)
  | setgain (x : Byte)
  | rdc | rdr | rdg | rdb | rdall | getstat
deriving DecidableEq, Repr

/-- The expansion column of R91. -/
def Pseudo.expand : Pseudo → Instr
  | .pon => .wrreg enableOff ponBit
  | .ponaen => .wrreg enableOff (ponBit ||| aenBit)
  | .poff => .wrreg enableOff 0#8
  | .setatime x => .wrreg atimeOff x
  | .setgain x => .wrreg controlOff x
  | .rdc => .rd16 cdataOff
  | .rdr => .rd16 rdataOff
  | .rdg => .rd16 gdataOff
  | .rdb => .rd16 bdataOff
  | .rdall => .rdblk cdataOff 8#8
  | .getstat => .getr 0x00#8

/-! ### Text -/

/-- Why a line is no command. -/
inductive AsmError where
  | unknownMnemonic | operandCount | badOperand | doesNotFit
deriving DecidableEq, Repr

def isBlank (c : Char) : Bool := c == ' ' || c == '\t' || c == '\r'

def trim (cs : List Char) : List Char := ((cs.dropWhile isBlank).reverse.dropWhile isBlank).reverse

/-- The pieces of a text between separators. -/
def pieces (sep : Char) : List Char → List (List Char)
  | [] => [[]]
  | c :: cs =>
    match pieces sep cs with
    | [] => [[c]]
    | p :: ps => if c == sep then [] :: p :: ps else (c :: p) :: ps

def digitValue (c : Char) : Option Nat :=
  if '0' ≤ c ∧ c ≤ '9' then some (c.toNat - 48)
  else if 'a' ≤ c ∧ c ≤ 'f' then some (c.toNat - 87)
  else if 'A' ≤ c ∧ c ≤ 'F' then some (c.toNat - 55)
  else none

def digitsValue (base acc : Nat) : List Char → Option Nat
  | [] => some acc
  | c :: cs =>
    match digitValue c with
    | some d => if d < base then digitsValue base (acc * base + d) cs else none
    | none => none

/-- "Numbers are decimal or `0x` hexadecimal" (R90). -/
def numberOf (cs : List Char) : Option Nat :=
  match cs with
  | [] => none
  | '0' :: 'x' :: [] => none
  | '0' :: 'x' :: ds => digitsValue 16 0 ds
  | ds => digitsValue 10 0 ds

def nameIn (table : List (String × Nat)) (cs : List Char) : Option Nat :=
  (table.find? (fun p => p.1.toList == cs)).map (fun p => p.2)

/-- The offset names of R90. -/
def offsetNames : List (String × Nat) :=
  [("ENABLE", 0x00), ("ATIME", 0x01), ("CONTROL", 0x0F), ("CDATAL", 0x14), ("CDATAH", 0x15), ("RDATAL", 0x16),
    ("RDATAH", 0x17), ("GDATAL", 0x18), ("GDATAH", 0x19), ("BDATAL", 0x1A), ("BDATAH", 0x1B)]

/-- "`ch` may be C, R, G or B" (R90). -/
def channelNames : List (String × Nat) := [("C", 0), ("R", 1), ("G", 2), ("B", 3)]

/-- The control bits of R25. -/
def controlNames : List (String × Nat) := [("HARDFAIL", 1), ("W16", 2), ("BURST", 4)]

/-- The index names of 10_state.md R32. -/
def indexNames : List (String × Nat) :=
  [("STAT", 0x00), ("CTRL", 0x01), ("RAW_C", 0x02), ("RAW_R", 0x03), ("RAW_G", 0x04), ("RAW_B", 0x05),
    ("Q_R", 0x06), ("Q_G", 0x07), ("Q_B", 0x08), ("NORM", 0x09)]

/-- A name of the table, or a number. -/
def nameOrNumber (table : List (String × Nat)) (cs : List Char) : Option Nat :=
  match nameIn table cs with
  | some n => some n
  | none => numberOf cs

/-- The OR of a `|`-list of names. -/
def namesOr (table : List (String × Nat)) : List (List Char) → Option Nat
  | [] => some 0
  | p :: ps =>
    match nameIn table (trim p), namesOr table ps with
    | some a, some b => some (a ||| b)
    | _, _ => none

/-- "`ctl` may be a `|`-list of HARDFAIL, W16 and BURST, or a number" (R90). -/
def controlValue (cs : List Char) : Option Nat :=
  match numberOf cs with
  | some n => some n
  | none => namesOr controlNames (pieces '|' cs)

/-- "`idx` may be one of the names of 10_state.md rule R32, or `BLKBUF+n` for 0x10 + n" (R90). -/
def indexValue (cs : List Char) : Option Nat :=
  if "BLKBUF+".toList.isPrefixOf cs then
    match numberOf (cs.drop 7) with
    | some n => if n < Config.blkbufSize then some (0x10 + n) else none
    | none => none
  else nameOrNumber indexNames cs

/-- An operand of the width of its field; "refuses any operand that does not fit its field" (R90). -/
def fitted (width : Nat) (v : Option Nat) : Except AsmError (BitVec width) :=
  match v with
  | none => .error .badOperand
  | some n => if n < 2 ^ width then .ok (BitVec.ofNat width n) else .error .doesNotFit

def offsetOperand (cs : List Char) : Except AsmError Offset := fitted 5 (nameOrNumber offsetNames cs)
def byteOperand (cs : List Char) : Except AsmError Byte := fitted 8 (numberOf cs)

/-- A mnemonic that takes no operand (R90, R91). -/
def plainCommands : List (String × Instr) :=
  [("OPEN", .openBus), ("CONFIGD", .configd), ("TEARDOWN", .teardown), ("MEASURE", .measure), ("QUERYR", .queryr),
    ("QUERYG", .queryg), ("QUERYB", .queryb), ("NORM", .norm), ("PON", Pseudo.pon.expand),
    ("PONAEN", Pseudo.ponaen.expand), ("POFF", Pseudo.poff.expand), ("RDC", Pseudo.rdc.expand),
    ("RDR", Pseudo.rdr.expand), ("RDG", Pseudo.rdg.expand), ("RDB", Pseudo.rdb.expand),
    ("RDALL", Pseudo.rdall.expand), ("GETSTAT", Pseudo.getstat.expand)]

/-- A mnemonic that takes one operand (R90, R91). -/
def oneOperand (m : String) (a : List Char) : Except AsmError Instr :=
  if m == "RD8" then (offsetOperand a).map .rd8
  else if m == "RD16" then (offsetOperand a).map .rd16
  else if m == "SETCTRL" then (fitted 3 (controlValue a)).map .setctrl
  else if m == "GETR" then (fitted 8 (indexValue a)).map .getr
  else if m == "SETATIME" then (byteOperand a).map (fun x => (Pseudo.setatime x).expand)
  else if m == "SETGAIN" then (byteOperand a).map (fun x => (Pseudo.setgain x).expand)
  else .error .operandCount

/-- Two operands, each fitted, into one instruction. -/
def bothOperands {α β : Type} (f : α → β → Instr) (x : Except AsmError α) (y : Except AsmError β) :
    Except AsmError Instr :=
  match x, y with
  | .ok a, .ok b => .ok (f a b)
  | .error e, _ => .error e
  | _, .error e => .error e

/-- A mnemonic that takes two operands (R90). -/
def twoOperands (m : String) (a b : List Char) : Except AsmError Instr :=
  if m == "WRREG" then bothOperands .wrreg (offsetOperand a) (byteOperand b)
  else if m == "RDBLK" then bothOperands .rdblk (offsetOperand a) (byteOperand b)
  else if m == "CONFIG" then bothOperands .config (byteOperand a) (byteOperand b)
  else if m == "LDRAW" then
    bothOperands (fun c v => .ldraw (channelOf c) v) (fitted 2 (nameOrNumber channelNames a)) (fitted 16 (numberOf b))
  else .error .operandCount

/-- The mnemonics of R90 and R91 that take operands. -/
def operandMnemonics : List String :=
  ["RD8", "RD16", "SETCTRL", "GETR", "SETATIME", "SETGAIN", "WRREG", "RDBLK", "CONFIG", "LDRAW"]

/-- A mnemonic and its operand texts. -/
def commandOf (m : String) (operands : List (List Char)) : Except AsmError Instr :=
  match plainCommands.find? (fun p => p.1 == m) with
  | some p => if operands.isEmpty then .ok p.2 else .error .operandCount
  | none =>
    if operandMnemonics.contains m then
      match operands with
      | [a] => oneOperand m a
      | [a, b] => twoOperands m a b
      | _ => .error .operandCount
    else .error .unknownMnemonic

/-- One line of assembly text, a comment taken off; none for a line that holds no command (R90). -/
def assembleLine (line : List Char) : Except AsmError (Option Word) :=
  let code := trim (line.takeWhile (fun c => c != ';'))
  let mnemonic := code.takeWhile (fun c => !isBlank c)
  let rest := trim (code.dropWhile (fun c => !isBlank c))
  if code.isEmpty then .ok none
  else
    match commandOf (String.ofList mnemonic) (if rest.isEmpty then [] else (pieces ',' rest).map trim) with
    | .ok i => .ok (some (encode i))
    | .error e => .error e

/-- The words of a list of lines, in order. -/
def assembleLines : List (List Char) → Except AsmError (List Word)
  | [] => .ok []
  | l :: ls =>
    match assembleLine l, assembleLines ls with
    | .ok (some w), .ok ws => .ok (w :: ws)
    | .ok none, .ok ws => .ok ws
    | .error e, _ => .error e
    | _, .error e => .error e

/-- A program text, "one command per line" (R90). -/
def assemble (text : String) : Except AsmError (List Word) := assembleLines (pieces '\n' text.toList)

end Sys2Proof.Machine
end

