-- ==== Sys2Proof/Safety.lean ====
section
/-! DEFINITION. The terms claims are stated in: the legal form of a state (the invariant every step keeps), the command a
step works on, and the plans that the spec's tables give for transactions, statuses and edges. -/

namespace Sys2Proof.Machine

/-! ### Transactions -/

/-- A command byte: `cmd[7] = 1`, `cmd[6:5] = 00` (20_memory.md R54). -/
def framed (cmd : Byte) : Bool := cmd.extractLsb' 5 3 == 0b100#3

/-- The offset of a command byte, `cmd[4:0]` (R54). -/
def offsetOf (cmd : Byte) : Nat := (cmd.extractLsb' 0 5).toNat

/-- A request the block may issue: framed, inside the register space, and for the one bus address (R54, R55, R64). -/
def Request.legal : Request → Bool
  | .bw cmd _ => framed cmd
  | .br cmd => framed cmd
  | .wr cmd => framed cmd && decide (offsetOf cmd + 2 ≤ Config.regSpace)
  | .kr cmd n => framed cmd && decide (1 ≤ n ∧ offsetOf cmd + n ≤ Config.regSpace)
  | .acq => true
  | .claim addr => addr == Config.busAddr
  | .rela => true
  | .relb => true

/-- The bytes an answer carries (R57). -/
def Answer.bytes : Answer → List Byte
  | .err => []
  | .ok bytes => bytes

/-- A log entry of the legal form: a legal request, and a success answer with exactly its bytes (R57). -/
def Transaction.legal (t : Transaction) : Bool :=
  t.request.legal && (t.answer == .err || t.answer.bytes.length == t.request.answerBytes)

/-- The log entries of requests that are answered in order (10_state.md R38). -/
def answeredBy (requests : List Request) (draws : List Draw) : List Transaction :=
  List.zipWith (fun r d => ⟨r, d.answer r⟩) requests draws

/-- A draw that is a success. -/
def Draw.isOk : Draw → Bool
  | .err => false
  | .ok _ => true

/-! ### The sequencer position and the command it belongs to (10_state.md R36) -/

/-- The command whose `Fetch()` ends in a report (42_measure.md R141-R144). -/
def Report.instr : Report → Instr
  | .measure => .measure
  | .queryRed => .queryr
  | .queryGreen => .queryg
  | .queryBlue => .queryb

/-- The use and the offset of a 16-bit read belong to the command `i` (R106, R140). -/
def Use16.belongsTo (use : Use16) (off : Offset) (i : Instr) : Bool :=
  match use with
  | .rd16 => i == .rd16 off && i.wellFormed
  | .clear rep => i == rep.instr && off == cdataOff
  | .red rep _ => i == rep.instr && off == rdataOff
  | .green rep _ _ => i == rep.instr && off == gdataOff
  | .blue rep _ _ _ => i == rep.instr && off == bdataOff

/-- The position is a position of the command `i`. -/
def Wait.belongsTo (step : Wait) (i : Instr) : Bool :=
  match step with
  | .writeByte off data => i == .wrreg off data
  | .readByte off => i == .rd8 off
  | .lowByte use off => use.belongsTo off i
  | .highByte use off _ => use.belongsTo off i
  | .nativeWord use off => use.belongsTo off i
  | .readBlock off len => i == .rdblk off len && i.wellFormed
  | .burst rep => i == rep.instr
  | .acquire => i == .openBus
  | .claim => i == .openBus
  | .rollback => i == .openBus
  | .configWrite _ atime gain =>
    i == .config atime gain || (i == .configd && atime == Config.defaultAtime && gain == Config.defaultGain)
  | .releaseAddr => i == .teardown
  | .releaseBus _ => i == .teardown

/-- The number of the first transaction of a 16-bit read, by the strategy (R140). -/
def Use16.firstTxn (w16 : Bool) : Use16 → Nat
  | .rd16 => 1
  | .clear _ => 1
  | .red _ _ => if w16 then 2 else 3
  | .green _ _ _ => if w16 then 3 else 5
  | .blue _ _ _ _ => if w16 then 4 else 7

/-- The number within its command of the transaction a position waits on (00_scope.md R9). -/
def Wait.number : Wait → Nat
  | .writeByte _ _ => 1
  | .readByte _ => 1
  | .lowByte use _ => use.firstTxn false
  | .highByte use _ _ => use.firstTxn false + 1
  | .nativeWord use _ => use.firstTxn true
  | .readBlock _ _ => 1
  | .burst _ => 1
  | .acquire => 1
  | .claim => 2
  | .rollback => 3
  | .configWrite k _ _ => k.number
  | .releaseAddr => 1
  | .releaseBus _ => 2

/-- STATE, HELD and the strategy bits are those a 16-bit read is made in (R101, R140, R141). -/
def Use16.admitted (use : Use16) (s : State) : Bool :=
  match use with
  | .rd16 => s.handleOpen && s.held == .both
  | _ => s.state == .configured && s.held == .both && !s.burst

/-- STATE, HELD and CTRL are those in which a command waits at this position. -/
def Wait.admitted (step : Wait) (s : State) : Bool :=
  match step with
  | .writeByte _ _ => s.handleOpen && s.held == .both
  | .readByte _ => s.handleOpen && s.held == .both
  | .lowByte use _ => use.admitted s && !s.w16
  | .highByte use _ _ => use.admitted s && !s.w16
  | .nativeWord use _ => use.admitted s && s.w16
  | .readBlock _ _ => s.handleOpen && s.held == .both
  | .burst _ => s.state == .configured && s.held == .both && s.burst
  | .acquire => s.state == .uninitialized && s.held == .none
  | .claim => s.state == .uninitialized && s.held == .busOnly
  | .rollback => s.state == .uninitialized && s.held == .busOnly
  | .configWrite _ _ _ => s.state == .busOpen && s.held == .both
  | .releaseAddr => s.state != .uninitialized && s.held == .both
  | .releaseBus m => s.state != .uninitialized && s.held == .busOnly && (m == 0#32 || m == 1#32)

/-! ### The invariant -/

/-- `CTRL` bits 7:3 are 0 (10_state.md R25, R26). -/
abbrev State.ctrlLegal (s : State) : Prop := s.ctrl.extractLsb' 3 5 = 0#5

/-- N and OVF are what the last division made of Q, and Q is a quotient (10_state.md R28-R30; 43_divider.md R161). -/
abbrev State.dividerLegal (s : State) : Prop :=
  s.n = s.q.saturated ∧ s.ovf = s.q.flags ∧
    s.q.red.toNat ≤ 65535 * 255 ∧ s.q.green.toNat ≤ 65535 * 255 ∧ s.q.blue.toNat ≤ 65535 * 255

/-- Every logged transaction has the legal form. -/
abbrev State.logLegal (s : State) : Prop := ∀ t ∈ s.log, t.legal = true

/-- Between commands `HELD = 00` exactly when STATE is Uninitialized, and otherwise `HELD = 11` (10_state.md R24). Inside a
command the position belongs to the command in progress, `txn` is its number, and STATE, HELD and CTRL are those it is
reached in. -/
def State.seqLegal (s : State) : Bool :=
  match s.seq with
  | .idle => if s.state = .uninitialized then s.held == .none else s.held == .both
  | .busy cmd step txn =>
    (match decode cmd with
      | .ok i => step.belongsTo i
      | .error _ => false) && step.admitted s && txn == step.number

/-- The legal states. -/
abbrev State.Inv (s : State) : Prop := s.ctrlLegal ∧ s.dividerLegal ∧ s.logLegal ∧ s.seqLegal = true

/-! ### Reference plans for the claims -/

/-- The command a step of `s` works on: the one in progress, or, for an idle block, the one on the port. -/
def State.current (s : State) : Option Instr :=
  match s.seq with
  | .busy cmd _ _ => (decode cmd).toOption
  | .idle =>
    match s.commands with
    | [] => none
    | w :: _ => (decode w).toOption

/-- The transactions of a successful `Fetch()`, the table of 42_measure.md R140. -/
def fetchPlan (burst w16 : Bool) : List Request :=
  if burst then [.kr 0x94#8 8]
  else if w16 then [.wr 0x94#8, .wr 0x96#8, .wr 0x98#8, .wr 0x9A#8]
  else [.br 0x94#8, .br 0x95#8, .br 0x96#8, .br 0x97#8, .br 0x98#8, .br 0x99#8, .br 0x9A#8, .br 0x9B#8]

/-- The eight bytes of CDATA low to BDATA high as four counters, each pair high byte above low byte (20_memory.md R59,
R62). -/
def snapshotOf (bytes : List Byte) : RawChannels where
  clear := bytes.getD 1 0#8 ++ bytes.getD 0 0#8
  red := bytes.getD 3 0#8 ++ bytes.getD 2 0#8
  green := bytes.getD 5 0#8 ++ bytes.getD 4 0#8
  blue := bytes.getD 7 0#8 ++ bytes.getD 6 0#8

/-- The bytes of the answers in a list of log entries, in order. -/
def bytesOf (entries : List Transaction) : List Byte := entries.flatMap (fun t => t.answer.bytes)

/-- The writes of the configuration sequence, the table of 41_lifecycle.md R124. -/
def configPlan (atime gain : Byte) : List Request :=
  [.bw 0x80#8 0x01#8, .bw 0x80#8 0x03#8, .bw 0x81#8 atime, .bw 0x8F#8 gain]

/-- What the admission table says of a command in a state (60_exceptions.md R206). -/
inductive Admission where
  | admitted | refusedStateError | refusedNotConfigured
deriving DecidableEq, Repr

/-- The admission table of 60_exceptions.md R206, row by row. -/
def admission (i : Instr) (st : DriverState) : Admission :=
  let transactor := if st = .busOpen ∨ st = .configured then Admission.admitted else .refusedStateError
  let only (wanted : DriverState) := if st = wanted then Admission.admitted else .refusedStateError
  let trusted := if st = .configured then Admission.admitted else .refusedNotConfigured
  match i with
  | .wrreg _ _ => transactor
  | .rd8 _ => transactor
  | .rd16 _ => transactor
  | .rdblk _ _ => transactor
  | .openBus => only .uninitialized
  | .config _ _ => only .busOpen
  | .configd => only .busOpen
  | .teardown => .admitted
  | .measure => trusted
  | .queryr => trusted
  | .queryg => trusted
  | .queryb => trusted
  | .ldraw _ _ => .admitted
  | .norm => .admitted
  | .setctrl _ => .admitted
  | .getr _ => .admitted

/-- A command that issues a BR when CTRL selects composed reads (40_transactor.md R103). -/
def mayReadBytes : Instr → Bool
  | .wrreg _ _ => false
  | .rd8 _ => true
  | .rd16 _ => true
  | .rdblk _ _ => false
  | .openBus => false
  | .config _ _ => false
  | .configd => false
  | .teardown => false
  | .measure => true
  | .queryr => true
  | .queryg => true
  | .queryb => true
  | .ldraw _ _ => false
  | .norm => false
  | .setctrl _ => false
  | .getr _ => false

/-- CONFIG or CONFIGD. -/
def configures : Instr → Bool
  | .config _ _ => true
  | .configd => true
  | _ => false

/-- MEASURE or a QUERY. -/
def fetches : Instr → Bool
  | .measure => true
  | .queryr => true
  | .queryg => true
  | .queryb => true
  | _ => false

/-- The last logged transaction is a failed BR. -/
def byteReadFailed (log : List Transaction) : Bool :=
  match log.getLast? with
  | some ⟨.br _, .err⟩ => true
  | _ => false

/-- The edges of STATE, the table of 10_state.md R22: from, to, the command and how it ended (`status`, and the log after
it), with the bit HARDFAIL. -/
def stateEdge (hardFail : Bool) (from_ : DriverState) (i : Instr) (status : Status) (log : List Transaction)
    (to_ : DriverState) : Bool :=
  let byHardFail := hardFail && mayReadBytes i && status == .busError && byteReadFailed log
  match from_, to_ with
  | .uninitialized, .busOpen => i == .openBus && status == .ok
  | .busOpen, .configured => configures i && status == .ok
  | .busOpen, .failed => (configures i && status == .configStepError) || byHardFail
  | .configured, .failed => byHardFail
  | _, .uninitialized => i == .teardown
  | _, _ => false

end Sys2Proof.Machine
end

