-- ==== Sys2Proof/Certificates/Slice0/Obligations.lean ====
section
/-! DEFINITION. The statements for the provers. Each says the whole next state where it says one: a field that an equation
`exec i s = .next { s with … }` does not name is unchanged, which is the command's frame. The hypothesis `s.seq = .idle` is the
spec's own condition for a command to be taken (70_reset_and_hazards.md R228). The answers in `draws`, and the two open
parameters of Config, are free in every statement. -/

open Sys2Proof Sys2Proof.Machine

/-! ### Encoding -/

/-- Words written out from 30_encoding.md R82, R83, one of each format, decode to the commands they stand for. -/
def Obligations.SpecWordsDecode : Prop :=
  decode 0b00000001000111110000000011111111#32 = .ok (.wrreg 0x1F#5 0xFF#8) ∧
  decode 0b00000010000100100000000000000000#32 = .ok (.rd8 0x12#5) ∧
  decode 0b00000011000111100000000000000000#32 = .ok (.rd16 0x1E#5) ∧
  decode 0b00000100000110000000000000001000#32 = .ok (.rdblk 0x18#5 8#8) ∧
  decode 0b00010000000000000000000000000000#32 = .ok .openBus ∧
  decode 0b00010001000000001111011000000001#32 = .ok (.config 0xF6#8 0x01#8) ∧
  decode 0b00110000000000110001001000110100#32 = .ok (.ldraw .blue 0x1234#16) ∧
  decode 0b01000000000000000000000000000110#32 = .ok (.setctrl 0b110#3) ∧
  decode 0b01000001001011110000000000000000#32 = .ok (.getr 0x2F#8)

/-- For every command and every operand the encoding admits, the decoder reads the encoder's word back as that command. -/
def Obligations.DecodeOfEncodeIsTheCommand : Prop :=
  ∀ i : Instr, i.wellFormed = true → decode (encode i) = .ok i

/-- A word that decodes to a command is that command's one word: no bit is ignored and no second spelling exists. -/
def Obligations.EncodeOfDecodeIsTheWord : Prop :=
  ∀ (w : Word) (i : Instr), decode w = .ok i → encode i = w ∧ i.wellFormed = true

/-- At most one row of the opcode map covers a word. -/
def Obligations.OpcodeRowsNeverOverlap : Prop :=
  rows.length = 16 ∧ rows.Pairwise (fun a b => ∀ w : Word, ¬ (a.covers w = true ∧ b.covers w = true))

/-- R207: the words that match no row of the opcode map (a reserved OP or a nonzero must-be-zero bit among them) or fail an
operand check end IllegalCommand in every state, with DATA 0, no transaction and no other effect; every other word decodes
to a command (R84, R87), and the step is that command's meaning with the word taken from the port. That one step is a whole
command, and that the port's words are a list, are the model's choices: log entries 1 and 4. -/
def Obligations.IllegalWordsAndNoOthersAreIllegalCommand : Prop :=
  ∀ (s : State) (w : Word) (ws : List Word), s.seq = .idle → s.commands = w :: ws →
    let illegal : Prop :=
      (∀ r ∈ rows, w &&& r.mask ≠ r.value) ∨
      (w.extractLsb' 24 8 = 0x03#8 ∧ w.extractLsb' 16 5 = 0x1F#5) ∨
      (w.extractLsb' 24 8 = 0x04#8 ∧
        ((w.extractLsb' 0 8).toNat = 0 ∨ 0x20 < (w.extractLsb' 16 5).toNat + (w.extractLsb' 0 8).toNat)) ∨
      (w.extractLsb' 24 8 = 0x41#8 ∧
        ¬ ((w.extractLsb' 16 8).toNat ≤ 0x09 ∨
          (0x10 ≤ (w.extractLsb' 16 8).toNat ∧ (w.extractLsb' 16 8).toNat ≤ 0x2F)))
    (illegal → step s =
      .next { s with commands := ws, responses := s.responses ++ [⟨.illegalCommand, 0#32⟩] }) ∧
    (¬ illegal → ∃ i, decode w = .ok i ∧ step s = exec i { s with commands := ws })

/-- R86: the reserved OP values are the listed ones and no others, and a word with one of them is IllegalCommand with DATA 0,
no transaction and no other effect; the all-zero word is one of them. -/
def Obligations.ReservedOpcodesAreIllegalCommand : Prop :=
  let reserved (op : Nat) : Prop :=
    op = 0x00 ∨ (0x05 ≤ op ∧ op ≤ 0x0F) ∨ (0x14 ≤ op ∧ op ≤ 0x1F) ∨ (0x24 ≤ op ∧ op ≤ 0x2F) ∨
      (0x32 ≤ op ∧ op ≤ 0x3F) ∨ (0x42 ≤ op ∧ op ≤ 0xFF)
  (∀ op : Byte, reserved op.toNat ↔ ∀ i : Instr, i.opcode ≠ op) ∧
  reserved ((0#32 : Word).extractLsb' 24 8).toNat ∧
  ∀ (s : State) (w : Word) (ws : List Word), s.seq = .idle → s.commands = w :: ws →
    reserved (w.extractLsb' 24 8).toNat →
    step s = .next { s with commands := ws, responses := s.responses ++ [⟨.illegalCommand, 0#32⟩] }

/-- Given to the machine directly, a command whose operands fail the checks of R85 is IllegalCommand as well, in every
state. (The decoder refuses its word, so no step runs it: log entry 10.) -/
def Obligations.IllFormedOperandsAreIllegalCommand : Prop :=
  ∀ (s : State) (i : Instr), s.seq = .idle → i.wellFormed = false →
    exec i s = .next { s with responses := s.responses ++ [⟨.illegalCommand, 0#32⟩] }

/-- R91: the eleven pseudo-instructions, their expansions and their words. -/
def Obligations.PseudoInstructionsHaveTheirWords : Prop :=
  (Pseudo.expand .pon = .wrreg 0x00#5 0x01#8 ∧ encode (Pseudo.expand .pon) = 0x01000001#32) ∧
  (Pseudo.expand .ponaen = .wrreg 0x00#5 0x03#8 ∧ encode (Pseudo.expand .ponaen) = 0x01000003#32) ∧
  (Pseudo.expand .poff = .wrreg 0x00#5 0x00#8 ∧ encode (Pseudo.expand .poff) = 0x01000000#32) ∧
  (∀ x, Pseudo.expand (.setatime x) = .wrreg 0x01#5 x ∧ encode (Pseudo.expand (.setatime x)) = 0x010100#24 ++ x) ∧
  (∀ x, Pseudo.expand (.setgain x) = .wrreg 0x0F#5 x ∧ encode (Pseudo.expand (.setgain x)) = 0x010F00#24 ++ x) ∧
  (Pseudo.expand .rdc = .rd16 0x14#5 ∧ encode (Pseudo.expand .rdc) = 0x03140000#32) ∧
  (Pseudo.expand .rdr = .rd16 0x16#5 ∧ encode (Pseudo.expand .rdr) = 0x03160000#32) ∧
  (Pseudo.expand .rdg = .rd16 0x18#5 ∧ encode (Pseudo.expand .rdg) = 0x03180000#32) ∧
  (Pseudo.expand .rdb = .rd16 0x1A#5 ∧ encode (Pseudo.expand .rdb) = 0x031A0000#32) ∧
  (Pseudo.expand .rdall = .rdblk 0x14#5 8#8 ∧ encode (Pseudo.expand .rdall) = 0x04140008#32) ∧
  (Pseudo.expand .getstat = .getr 0x00#8 ∧ encode (Pseudo.expand .getstat) = 0x41000000#32)

/-! ### Steps and the two ports -/

/-- A step of an idle block takes the word on the port and runs the command it decodes to. A step is a whole command and the
port's words are a list: the model's choices, log entries 1 and 4. -/
def Obligations.StepRunsTheDecodedCommand : Prop :=
  ∀ (s : State) (w : Word) (ws : List Word) (i : Instr), s.seq = .idle → s.commands = w :: ws →
    decode w = .ok i → step s = exec i { s with commands := ws }

/-- An idle block to which no word is presented waits. The step that changes nothing is the model's form of that wait (log
entry 8). -/
def Obligations.IdleBlockWaitsForACommand : Prop :=
  ∀ s : State, s.seq = .idle → s.commands = [] → step s = .next s

/-- A busy block takes no command word: it is held on the port, and what the block does does not depend on it. -/
def Obligations.BusyBlockHoldsTheCommandOnThePort : Prop :=
  ∀ (s : State) (cmd : Word) (p : Wait) (k : Nat) (ws : List Word), s.seq = .busy cmd p k →
    ∃ t, step s = .next t ∧ t.commands = s.commands ∧
      step { s with commands := ws } = .next { t with commands := ws }

/-- R229, in the model's form (log entry 8): with no answer from the transport the block stays busy for ever and takes no further command. -/
def Obligations.SilentTransportLeavesTheBlockBusyForEver : Prop :=
  ∀ (s : State) (cmd : Word) (p : Wait) (k : Nat), s.seq = .busy cmd p k → s.draws = [] →
    ∀ n : Nat, core.run n s = .next s

/-- When answers come makes no difference: a command that is given its answers in two parts ends as if it had been given
them at once. (That answers come as a list is the model's choice, log entry 2.) -/
def Obligations.LateAnswersChangeNothing : Prop :=
  ∀ (s t : State) (w : Word) (ws : List Word) (early late : List Draw), s.seq = .idle → s.commands = w :: ws →
    step { s with draws := early } = .next t → (∃ cmd p k, t.seq = .busy cmd p k) →
    step { s with draws := early ++ late } = step { t with draws := t.draws ++ late }

/-- R11, in the model's form: a command that the transport answers runs to completion and ends in exactly one response. That it
does so in one step, and that the answers are listed beforehand, are the model's choices: log entries 1 and 2. The bound of
eight transactions is read from the commands' own rules (R104-R107, R121, R123, R127, R140), not from R11. -/
def Obligations.EveryCommandEndsInOneResponse : Prop :=
  ∀ (s : State) (w : Word) (ws : List Word), s.seq = .idle → s.commands = w :: ws → 8 ≤ s.draws.length →
    ∃ t r entries, step s = .next t ∧ t.seq = .idle ∧ t.commands = ws ∧ t.responses = s.responses ++ [r] ∧
      t.log = s.log ++ entries ∧ entries.length ≤ 8

/-- The log only grows, in the order in which the transport answers, each entry with the answer that was drawn for it; the
answers not yet used stay with the transport. A busy block to which an answer comes logs first the request it waits on. That a
transaction is logged when its answer comes, so that an outstanding one is not in the log but is read from the sequencer
position, is the model's choice: log entry 7. -/
def Obligations.LogRecordsEachAnswerInOrder : Prop :=
  ∀ s t : State, step s = .next t →
    ∃ requests used, s.draws = used ++ t.draws ∧ requests.length = used.length ∧
      t.log = s.log ++ answeredBy requests used ∧
      ∀ cmd p k, s.seq = .busy cmd p k → s.draws ≠ [] → requests.head? = some p.request

/-! ### Reset and the invariant -/

/-- R220: every piece of state at reset. -/
def Obligations.ResetValues : Prop :=
  State.reset.state = .uninitialized ∧ State.reset.held = ⟨false, false⟩ ∧ State.reset.ctrl = 0x00#8 ∧
  State.reset.raw = ⟨0x0000#16, 0x0000#16, 0x0000#16, 0x0000#16⟩ ∧ State.reset.q = ⟨0#24, 0#24, 0#24⟩ ∧
  State.reset.n = ⟨0#8, 0#8, 0#8⟩ ∧ State.reset.ovf = 0#3 ∧ (∀ i : Fin 32, State.reset.blkbuf[i] = 0x00#8) ∧
  State.reset.seq = .idle ∧ State.reset.log = []

/-- Power-on of a running block: it issues no transaction, forgets what it held, and every piece of state takes its reset
value. What host and transport are going to do stays theirs (log entry 18). -/
def Obligations.PowerOnForgetsWithoutATransaction : Prop :=
  ∀ s : State, s.powerOn.log = [] ∧ s.powerOn.draws = s.draws ∧ s.powerOn.held = ⟨false, false⟩ ∧
    s.powerOn.seq = .idle ∧ s.powerOn.state = .uninitialized ∧ s.powerOn.ctrl = State.reset.ctrl ∧
    s.powerOn.raw = State.reset.raw ∧ s.powerOn.q = State.reset.q ∧ s.powerOn.n = State.reset.n ∧
    s.powerOn.ovf = State.reset.ovf ∧ s.powerOn.blkbuf = State.reset.blkbuf

/-- The state after reset is a legal one. -/
def Obligations.ResetMeetsTheInvariant : Prop := State.reset.Inv

/-- Every step of a legal state gives a legal state: the reserved CTRL bits stay 0, N and OVF stay what the last division made
of Q, every logged transaction is framed, in range and answered with exactly its bytes, HELD agrees with STATE between
commands, and inside one the sequencer position belongs to the command in progress. -/
def Obligations.StepKeepsTheInvariant : Prop :=
  ∀ s t : State, s.Inv → step s = .next t → t.Inv

/-! ### Transactor -/

/-- R104: WRREG writes one byte to the sensor register `0x80 | off` by one BW. -/
def Obligations.WrregWritesOneByte : Prop :=
  ∀ (s : State) (off : Offset) (data : Byte) (d : Draw) (rest : List Draw), s.seq = .idle →
    s.state = .busOpen ∨ s.state = .configured → s.draws = d :: rest →
    exec (.wrreg off data) s =
      .next { s with
        draws := rest
        log := s.log ++ [⟨.bw (0x80#8 ||| off.setWidth 8) data, if d.isOk then .ok [] else .err⟩]
        responses := s.responses ++ [if d.isOk then ⟨.ok, 0#32⟩ else ⟨.busError, 1#32⟩] }

/-- R105 with the hard-fail policy of R103: RD8 reads one byte by one BR; a failed BR sets STATE to Failed exactly under
HARDFAIL. -/
def Obligations.Rd8ReadsOneByteUnderTheHardFailPolicy : Prop :=
  ∀ (s : State) (off : Offset) (rest : List Draw), s.seq = .idle → s.state = .busOpen ∨ s.state = .configured →
    (∀ b : Vector Byte 32, s.draws = .ok b :: rest →
      exec (.rd8 off) s =
        .next { s with
          draws := rest
          log := s.log ++ [⟨.br (0x80#8 ||| off.setWidth 8), .ok [b[0]]⟩]
          responses := s.responses ++ [⟨.ok, b[0].setWidth 32⟩] }) ∧
    (s.draws = .err :: rest →
      exec (.rd8 off) s =
        .next { s with
          draws := rest
          state := if s.ctrl.getLsbD 0 then .failed else s.state
          log := s.log ++ [⟨.br (0x80#8 ||| off.setWidth 8), .err⟩]
          responses := s.responses ++ [⟨.busError, 1#32⟩] })

/-- R60, R102, R106 with W16 = 0: RD16 reads the low byte, then, only if that succeeded, the high byte of the next register;
DATA is `hi` above `lo`; a failure names its transaction and is under the hard-fail policy. -/
def Obligations.Rd16ComposesTwoByteReads : Prop :=
  ∀ (s : State) (off : Offset) (rest : List Draw), s.seq = .idle → s.state = .busOpen ∨ s.state = .configured →
    off.toNat ≤ 0x1E → s.ctrl.getLsbD 1 = false →
    let low : Request := .br (0x80#8 ||| off.setWidth 8)
    let high : Request := .br (0x80#8 ||| (off + 1#5).setWidth 8)
    let after : DriverState := if s.ctrl.getLsbD 0 then .failed else s.state
    (∀ a b : Vector Byte 32, s.draws = .ok a :: .ok b :: rest →
      exec (.rd16 off) s =
        .next { s with
          draws := rest
          log := s.log ++ [⟨low, .ok [a[0]]⟩, ⟨high, .ok [b[0]]⟩]
          responses := s.responses ++ [⟨.ok, 0#16 ++ b[0] ++ a[0]⟩] }) ∧
    (∀ a : Vector Byte 32, s.draws = .ok a :: .err :: rest →
      exec (.rd16 off) s =
        .next { s with
          draws := rest
          state := after
          log := s.log ++ [⟨low, .ok [a[0]]⟩, ⟨high, .err⟩]
          responses := s.responses ++ [⟨.busError, 2#32⟩] }) ∧
    (s.draws = .err :: rest →
      exec (.rd16 off) s =
        .next { s with
          draws := rest
          state := after
          log := s.log ++ [⟨low, .err⟩]
          responses := s.responses ++ [⟨.busError, 1#32⟩] })

/-- R61, R102, R106 with W16 = 1: RD16 reads both bytes by one WR, the first byte low; HARDFAIL does not cover it. -/
def Obligations.Rd16ReadsANativeWord : Prop :=
  ∀ (s : State) (off : Offset) (rest : List Draw), s.seq = .idle → s.state = .busOpen ∨ s.state = .configured →
    off.toNat ≤ 0x1E → s.ctrl.getLsbD 1 = true →
    (∀ b : Vector Byte 32, s.draws = .ok b :: rest →
      exec (.rd16 off) s =
        .next { s with
          draws := rest
          log := s.log ++ [⟨.wr (0x80#8 ||| off.setWidth 8), .ok [b[0], b[1]]⟩]
          responses := s.responses ++ [⟨.ok, 0#16 ++ b[1] ++ b[0]⟩] }) ∧
    (s.draws = .err :: rest →
      exec (.rd16 off) s =
        .next { s with
          draws := rest
          log := s.log ++ [⟨.wr (0x80#8 ||| off.setWidth 8), .err⟩]
          responses := s.responses ++ [⟨.busError, 1#32⟩] })

/-- R107: RDBLK reads `len` bytes by one KR; on success BLKBUF[0..len-1] takes them, the other entries keep their values, and
DATA is `len`; on failure BLKBUF is unchanged and HARDFAIL plays no part. -/
def Obligations.RdblkFillsTheBlockBuffer : Prop :=
  ∀ (s : State) (off : Offset) (len : Byte) (rest : List Draw), s.seq = .idle →
    s.state = .busOpen ∨ s.state = .configured → 1 ≤ len.toNat → off.toNat + len.toNat ≤ 0x20 →
    (∀ b : Vector Byte 32, s.draws = .ok b :: rest →
      exec (.rdblk off len) s =
        .next { s with
          draws := rest
          blkbuf := Vector.ofFn fun i : Fin 32 => if i.val < len.toNat then b[i] else s.blkbuf[i]
          log := s.log ++ [⟨.kr (0x80#8 ||| off.setWidth 8) len.toNat, .ok (b.toList.take len.toNat)⟩]
          responses := s.responses ++ [⟨.ok, len.setWidth 32⟩] }) ∧
    (s.draws = .err :: rest →
      exec (.rdblk off len) s =
        .next { s with
          draws := rest
          log := s.log ++ [⟨.kr (0x80#8 ||| off.setWidth 8) len.toNat, .err⟩]
          responses := s.responses ++ [⟨.busError, 1#32⟩] })

/-! ### Admission -/

/-- R101, R147, R205, R206: a command that the admission table does not admit in a state ends StateError or NotConfiguredError
as the table says, with DATA 0, no transaction and no other effect; one that it admits ends in neither. -/
def Obligations.AdmissionFollowsTheTable : Prop :=
  ∀ (s t : State) (i : Instr), s.seq = .idle → i.wellFormed = true → exec i s = .next t →
    (admission i s.state = .refusedStateError →
      t = { s with responses := s.responses ++ [⟨.stateError, 0#32⟩] }) ∧
    (admission i s.state = .refusedNotConfigured →
      t = { s with responses := s.responses ++ [⟨.notConfiguredError, 0#32⟩] }) ∧
    (admission i s.state = .admitted →
      ∀ data : Word, t.responses ≠ s.responses ++ [⟨.stateError, data⟩] ∧
        t.responses ≠ s.responses ++ [⟨.notConfiguredError, data⟩])

/-- R129: only TEARDOWN leaves Failed. There OPEN, CONFIG, CONFIGD and the transactor commands end StateError, MEASURE and the
QUERY commands end NotConfiguredError, and LDRAW, NORM, SETCTRL and GETR work: they answer OK. None of these issues a
transaction there. -/
def Obligations.FailedIsLeftOnlyByTeardown : Prop :=
  ∀ (s t : State) (i : Instr), s.seq = .idle → s.state = .failed → i.wellFormed = true → i ≠ .teardown →
    exec i s = .next t →
    t.state = .failed ∧ t.log = s.log ∧ ∃ r : Response, t.responses = s.responses ++ [r] ∧
      (admission i .failed = .refusedStateError → r.status = .stateError) ∧
      (fetches i = true → r.status = .notConfiguredError) ∧
      (admission i .failed = .admitted → r.status = .ok)

/-! ### Lifecycle -/

/-- R121, R122: OPEN from Uninitialized issues ACQ, then CLAIM(0x29), and, when the claim fails, RELB; it ends BusOpen with
both resources held, or Uninitialized with none, and names the error that started the rollback. -/
def Obligations.OpenAcquiresClaimsOrRollsBack : Prop :=
  ∀ (s : State) (rest : List Draw), s.seq = .idle → s.state = .uninitialized → s.held = ⟨false, false⟩ →
    (∀ a b : Vector Byte 32, s.draws = .ok a :: .ok b :: rest →
      exec .openBus s =
        .next { s with
          draws := rest
          state := .busOpen
          held := ⟨true, true⟩
          log := s.log ++ [⟨.acq, .ok []⟩, ⟨.claim 0x29#7, .ok []⟩]
          responses := s.responses ++ [⟨.ok, 0#32⟩] }) ∧
    (s.draws = .err :: rest →
      exec .openBus s =
        .next { s with
          draws := rest
          log := s.log ++ [⟨.acq, .err⟩]
          responses := s.responses ++ [⟨.busOpenError, 1#32⟩] }) ∧
    (∀ a c : Vector Byte 32, s.draws = .ok a :: .err :: .ok c :: rest →
      exec .openBus s =
        .next { s with
          draws := rest
          log := s.log ++ [⟨.acq, .ok []⟩, ⟨.claim 0x29#7, .err⟩, ⟨.relb, .ok []⟩]
          responses := s.responses ++ [⟨.busOpenError, 2#32⟩] }) ∧
    (∀ a : Vector Byte 32, s.draws = .ok a :: .err :: .err :: rest →
      exec .openBus s =
        .next { s with
          draws := rest
          log := s.log ++ [⟨.acq, .ok []⟩, ⟨.claim 0x29#7, .err⟩, ⟨.relb, .err⟩]
          responses := s.responses ++ [⟨.busOpenError, 0x102#32⟩] })

/-- R123, R124, R126: when the transport takes all four writes, CONFIG and CONFIGD (with its two default parameters, whatever
their values) end Configured, having written ENABLE, ENABLE, ATIME and CONTROL in that order. -/
def Obligations.ConfigWritesFourRegistersInOrder : Prop :=
  ∀ (s : State) (atime gain : Byte) (a b c d : Vector Byte 32) (rest : List Draw), s.seq = .idle →
    s.state = .busOpen → s.draws = .ok a :: .ok b :: .ok c :: .ok d :: rest →
    let result (at_ g : Byte) : State := { s with
      draws := rest
      state := .configured
      log := s.log ++ [⟨.bw 0x80#8 0x01#8, .ok []⟩, ⟨.bw 0x80#8 0x03#8, .ok []⟩, ⟨.bw 0x81#8 at_, .ok []⟩,
        ⟨.bw 0x8F#8 g, .ok []⟩]
      responses := s.responses ++ [⟨.ok, 0#32⟩] }
    exec (.config atime gain) s = .next (result atime gain) ∧
    exec .configd s = .next (result Config.defaultAtime Config.defaultGain)

/-- R125: when the write of step k fails, CONFIG and CONFIGD stop there: STATE is Failed, the response is ConfigStepError with
DATA = k, the log holds the writes of steps 1 to k and no later one, and HELD is unchanged. -/
def Obligations.ConfigFailureNamesItsStep : Prop :=
  ∀ (s : State) (atime gain : Byte) (done rest : List Draw), s.seq = .idle → s.state = .busOpen →
    s.draws = done ++ .err :: rest → done.length < 4 → (∀ d ∈ done, d.isOk = true) →
    let result (at_ g : Byte) : State := { s with
      draws := rest
      state := .failed
      log := s.log ++ answeredBy (configPlan at_ g) (done ++ [.err])
      responses := s.responses ++ [⟨.configStepError, BitVec.ofNat 32 (done.length + 1)⟩] }
    exec (.config atime gain) s = .next (result atime gain) ∧
    exec .configd s = .next (result Config.defaultAtime Config.defaultGain)

/-- R127, R128: TEARDOWN in every state ends Uninitialized with nothing held, whatever the transport answers; it releases
exactly what was held, ADDR before BUS, answers OK, and DATA says which release failed. -/
def Obligations.TeardownReleasesExactlyWhatIsHeld : Prop :=
  ∀ (s : State) (used rest : List Draw), s.seq = .idle → s.draws = used ++ rest →
    let addrPlan : List Request := if s.held.addr then [.rela] else []
    let busPlan : List Request := if s.held.bus then [.relb] else []
    used.length = (addrPlan ++ busPlan).length →
    exec .teardown s =
      .next { s with
        draws := rest
        state := .uninitialized
        held := ⟨false, false⟩
        log := s.log ++ answeredBy (addrPlan ++ busPlan) used
        responses := s.responses ++ [⟨.ok,
          (if (⟨.rela, .err⟩ : Transaction) ∈ answeredBy (addrPlan ++ busPlan) used then 1#32 else 0#32) +
          (if (⟨.relb, .err⟩ : Transaction) ∈ answeredBy (addrPlan ++ busPlan) used then 2#32 else 0#32)⟩] }

/-! ### Measurement -/

/-- R140, R141, R145: in Configured, when the transport answers every transaction of the strategy CTRL selects, MEASURE
replaces the whole snapshot by the eight bytes read, divides it, and answers the NORM word. -/
def Obligations.MeasureRefreshesAndNormalises : Prop :=
  ∀ (s : State) (used rest : List Draw), s.seq = .idle → s.state = .configured → s.draws = used ++ rest →
    (∀ d ∈ used, d.isOk = true) →
    let plan := fetchPlan (s.ctrl.getLsbD 2) (s.ctrl.getLsbD 1)
    used.length = plan.length →
    let entries := answeredBy plan used
    let snapshot := snapshotOf (bytesOf entries)
    let colour := snapshot.quotients.saturated
    (bytesOf entries).length = 8 ∧
    exec .measure s =
      .next { s with
        draws := rest
        raw := snapshot
        q := snapshot.quotients
        n := colour
        ovf := snapshot.quotients.flags
        log := s.log ++ entries
        responses := s.responses ++ [⟨.ok, 0#8 ++ colour.blue ++ colour.green ++ colour.red⟩] }

/-- R142-R144: QUERYR, QUERYG and QUERYB do what MEASURE does, and answer one component. -/
def Obligations.QueriesAnswerOneComponent : Prop :=
  ∀ (s : State) (used rest : List Draw), s.seq = .idle → s.state = .configured → s.draws = used ++ rest →
    (∀ d ∈ used, d.isOk = true) →
    let plan := fetchPlan (s.ctrl.getLsbD 2) (s.ctrl.getLsbD 1)
    used.length = plan.length →
    let snapshot := snapshotOf (bytesOf (answeredBy plan used))
    let colour := snapshot.quotients.saturated
    let result (component : Byte) : State := { s with
      draws := rest
      raw := snapshot
      q := snapshot.quotients
      n := colour
      ovf := snapshot.quotients.flags
      log := s.log ++ answeredBy plan used
      responses := s.responses ++ [⟨.ok, component.setWidth 32⟩] }
    exec .queryr s = .next (result colour.red) ∧
    exec .queryg s = .next (result colour.green) ∧
    exec .queryb s = .next (result colour.blue)

/-- R140, R203: a fetch stops at its first failing transaction and issues nothing after it; the response is BusError with its
number; RAW, Q, N and OVF are unchanged; STATE becomes Failed exactly when the failing transaction is a BR and HARDFAIL
is 1. -/
def Obligations.FetchStopsAtTheFirstFailure : Prop :=
  ∀ (s : State) (i : Instr) (done rest : List Draw), s.seq = .idle → s.state = .configured → fetches i = true →
    s.draws = done ++ .err :: rest → (∀ d ∈ done, d.isOk = true) →
    let plan := fetchPlan (s.ctrl.getLsbD 2) (s.ctrl.getLsbD 1)
    done.length < plan.length →
    exec i s =
      .next { s with
        draws := rest
        state := if s.ctrl.getLsbD 0 ∧ s.ctrl.getLsbD 1 = false ∧ s.ctrl.getLsbD 2 = false then .failed else s.state
        log := s.log ++ answeredBy plan (done ++ [.err])
        responses := s.responses ++ [⟨.busError, BitVec.ofNat 32 (done.length + 1)⟩] }

/-- R145: whatever the transport answers, and even if it stops answering, a MEASURE or QUERY either ends OK with RAW, Q, N and
OVF all of one fetch (Q, N and OVF the division of RAW), or leaves all of them as they were. -/
def Obligations.SnapshotIsWrittenWholeOrNotAtAll : Prop :=
  ∀ (s t : State) (i : Instr), s.seq = .idle → fetches i = true → exec i s = .next t →
    ((∃ data, t.responses = s.responses ++ [⟨.ok, data⟩]) ∧ t.q = t.raw.quotients ∧ t.n = t.q.saturated ∧
      t.ovf = t.q.flags ∧ ∃ entries, t.log = s.log ++ entries ∧ t.raw = snapshotOf (bytesOf entries)) ∨
    ((∀ data, t.responses ≠ s.responses ++ [⟨.ok, data⟩]) ∧ t.raw = s.raw ∧ t.q = s.q ∧ t.n = s.n ∧ t.ovf = s.ovf)

/-! ### Divider -/

/-- R160: for each colour, Q is the floor of raw × 255 / clear, or 0 when clear is 0; N is the smaller of Q and 255; the OVF bit
says whether Q is above 255. RAW is not written, and nothing else is. -/
def Obligations.DivideComputesTheFloorOfTheRatio : Prop :=
  ∀ s : State,
    let spec (raw : Half) : Nat := if s.raw.clear.toNat = 0 then 0 else raw.toNat * 255 / s.raw.clear.toNat
    s.divide = { s with q := s.divide.q, n := s.divide.n, ovf := s.divide.ovf } ∧
    (s.divide.q.red.toNat = spec s.raw.red ∧ s.divide.q.green.toNat = spec s.raw.green ∧
      s.divide.q.blue.toNat = spec s.raw.blue) ∧
    (s.divide.n.red.toNat = min (spec s.raw.red) 255 ∧ s.divide.n.green.toNat = min (spec s.raw.green) 255 ∧
      s.divide.n.blue.toNat = min (spec s.raw.blue) 255) ∧
    (s.divide.ovf.getLsbD 0 = decide (spec s.raw.red > 255) ∧
      s.divide.ovf.getLsbD 1 = decide (spec s.raw.green > 255) ∧
      s.divide.ovf.getLsbD 2 = decide (spec s.raw.blue > 255))

/-- R162: the zero guard. -/
def Obligations.ZeroClearGivesZero : Prop :=
  ∀ s : State, s.raw.clear = 0#16 →
    s.divide.q = ⟨0#24, 0#24, 0#24⟩ ∧ s.divide.n = ⟨0#8, 0#8, 0#8⟩ ∧ s.divide.ovf = 0#3

/-- R164 (a) to (g), for every clear and raw value of one channel. -/
def Obligations.DividerProperties : Prop :=
  ∀ c raw raw' : Half,
    let Q := (quotient c raw).toNat
    let N := (saturate (quotient c raw)).toNat
    let OVF := overflows (quotient c raw)
    (c.toNat = 0 → N = 0 ∧ Q = 0 ∧ OVF = false) ∧
    (0 < c.toNat → raw = c → Q = 255 ∧ N = 255 ∧ OVF = false) ∧
    (0 < c.toNat → raw.toNat = 0 → Q = 0 ∧ N = 0) ∧
    (0 < c.toNat → raw.toNat ≤ c.toNat → Q ≤ 255 ∧ N = Q ∧ OVF = false) ∧
    (0 < c.toNat → c.toNat < raw.toNat → 255 ≤ Q ∧ N = 255 ∧ (OVF = true ↔ 256 ≤ Q)) ∧
    (raw.toNat ≤ raw'.toNat → Q ≤ (quotient c raw').toNat ∧ N ≤ (saturate (quotient c raw')).toNat) ∧
    (0 < c.toNat → Q * c.toNat ≤ raw.toNat * 255 ∧ raw.toNat * 255 < (Q + 1) * c.toNat)

/-- R165: LDRAW writes the one RAW register `ch` names, in every state, without a transaction; Q, N and OVF are not
recomputed. -/
def Obligations.LdrawWritesOneRawRegister : Prop :=
  ∀ (s : State) (v : Half), s.seq = .idle →
    exec (.ldraw .clear v) s =
      .next { s with raw := { s.raw with clear := v }, responses := s.responses ++ [⟨.ok, 0#32⟩] } ∧
    exec (.ldraw .red v) s =
      .next { s with raw := { s.raw with red := v }, responses := s.responses ++ [⟨.ok, 0#32⟩] } ∧
    exec (.ldraw .green v) s =
      .next { s with raw := { s.raw with green := v }, responses := s.responses ++ [⟨.ok, 0#32⟩] } ∧
    exec (.ldraw .blue v) s =
      .next { s with raw := { s.raw with blue := v }, responses := s.responses ++ [⟨.ok, 0#32⟩] }

/-- R166: NORM divides the RAW registers as they stand, in every state, without a transaction, and answers the NORM word, red
in bits 7:0, green in bits 15:8, blue in bits 23:16. -/
def Obligations.NormDividesWhatRawHolds : Prop :=
  ∀ s : State, s.seq = .idle →
    exec .norm s =
      .next { s with
        q := s.divide.q
        n := s.divide.n
        ovf := s.divide.ovf
        responses := s.responses ++ [⟨.ok, 0#8 ++ s.divide.n.blue ++ s.divide.n.green ++ s.divide.n.red⟩] }

/-! ### Control -/

/-- R180: SETCTRL writes CTRL bits 2:0 and leaves bits 7:3 at 0, in every state and without a transaction; HARDFAIL, W16 and
BURST are its bits 0, 1 and 2. -/
def Obligations.SetctrlWritesTheControlRegister : Prop :=
  ∀ (s : State) (hardFail w16 burst : Bool), s.seq = .idle →
    let ctl := BitVec.ofBool burst ++ BitVec.ofBool w16 ++ BitVec.ofBool hardFail
    ∃ t, exec (.setctrl ctl) s = .next t ∧
      t = { s with ctrl := 0#5 ++ ctl, responses := s.responses ++ [⟨.ok, 0#32⟩] } ∧
      t.hardFail = hardFail ∧ t.w16 = w16 ∧ t.burst = burst

/-- R32, R181: GETR answers the register of the index map, in every state, and changes nothing else. -/
def Obligations.GetrReadsTheIndexMap : Prop :=
  ∀ (s : State), s.seq = .idle →
    let answers (idx : Byte) (v : Word) : Prop :=
      exec (.getr idx) s = .next { s with responses := s.responses ++ [⟨.ok, v⟩] }
    answers 0x00#8 s.statWord ∧ answers 0x01#8 (0#24 ++ s.ctrl) ∧
    answers 0x02#8 (0#16 ++ s.raw.clear) ∧ answers 0x03#8 (0#16 ++ s.raw.red) ∧
    answers 0x04#8 (0#16 ++ s.raw.green) ∧ answers 0x05#8 (0#16 ++ s.raw.blue) ∧
    answers 0x06#8 (0#8 ++ s.q.red) ∧ answers 0x07#8 (0#8 ++ s.q.green) ∧ answers 0x08#8 (0#8 ++ s.q.blue) ∧
    answers 0x09#8 (0#8 ++ s.n.blue ++ s.n.green ++ s.n.red) ∧
    ∀ i : Fin 32, answers (BitVec.ofNat 8 (0x10 + i.val)) (0#24 ++ s.blkbuf[i])

/-- R33: the layout of the STAT word, bit field by bit field, with the codes of R21 and R23. -/
def Obligations.StatWordLayout : Prop :=
  ∀ s : State,
    s.statWord.extractLsb' 0 2 =
      (match s.state with
        | .uninitialized => 0#2
        | .busOpen => 1#2
        | .configured => 2#2
        | .failed => 3#2) ∧
    s.statWord.getLsbD 2 = s.held.bus ∧ s.statWord.getLsbD 3 = s.held.addr ∧
    s.statWord.extractLsb' 4 3 = s.ctrl.extractLsb' 0 3 ∧ s.statWord.getLsbD 7 = false ∧
    s.statWord.extractLsb' 8 3 = s.ovf ∧ s.statWord.extractLsb' 11 21 = 0#21

/-! ### The whole machine -/

/-- R22: from a legal state, a step changes STATE only along the edges of the spec's table, and only by the command that the
table gives for the edge, ending as the table says. -/
def Obligations.StateMovesOnlyAlongItsEdges : Prop :=
  ∀ s t : State, s.Inv → step s = .next t → t.state ≠ s.state →
    ∃ i r, s.current = some i ∧ t.responses = s.responses ++ [r] ∧
      stateEdge s.hardFail s.state i r.status t.log t.state = true

/-- R24: between commands HELD is 00 exactly when STATE is Uninitialized, and 11 in every other state; at reset, and after
every step of a legal state that ends idle. -/
def Obligations.HeldAgreesWithStateBetweenCommands : Prop :=
  let agrees (s : State) : Prop :=
    (s.held = ⟨false, false⟩ ↔ s.state = .uninitialized) ∧ (s.state ≠ .uninitialized → s.held = ⟨true, true⟩)
  agrees State.reset ∧ ∀ s t : State, s.Inv → step s = .next t → t.seq = .idle → agrees t

/-- R26: no command sets CTRL bits 7:3, and they read as 0: at reset they are 0, a step that finds them 0 leaves them 0,
and GETR then reads 0 there. -/
def Obligations.ReservedControlBitsStayZero : Prop :=
  State.reset.ctrl.extractLsb' 3 5 = 0#5 ∧
  (∀ s t : State, s.ctrl.extractLsb' 3 5 = 0#5 → step s = .next t → t.ctrl.extractLsb' 3 5 = 0#5) ∧
  ∀ s : State, s.ctrl.extractLsb' 3 5 = 0#5 → s.seq = .idle →
    exec (.getr 0x01#8) s =
      .next { s with responses := s.responses ++ [⟨.ok, 0#29 ++ s.ctrl.extractLsb' 0 3⟩] }

/-- R72, R146: MEASURE and the QUERY commands answer nothing stored. Two blocks that differ in RAW, Q, N, OVF and BLKBUF alone
and get the same answers from the transport issue the same transactions, end in the same STATE with the same response, and,
when that is OK, hold the same snapshot and results. -/
def Obligations.FetchesNeverUseStoredValues : Prop :=
  ∀ (s t t' : State) (i : Instr) (raw : RawChannels) (q : Quotients) (n : NormalizedColor) (ovf : BitVec 3)
    (blkbuf : Vector Byte 32), s.seq = .idle → fetches i = true → exec i s = .next t →
    exec i { s with raw := raw, q := q, n := n, ovf := ovf, blkbuf := blkbuf } = .next t' →
    t'.log = t.log ∧ t'.state = t.state ∧ t'.seq = t.seq ∧ t'.draws = t.draws ∧ t'.responses = t.responses ∧
      ((∃ data, t.responses = s.responses ++ [⟨.ok, data⟩]) →
        t'.raw = t.raw ∧ t'.q = t.q ∧ t'.n = t.n ∧ t'.ovf = t.ovf)

/-- From a legal state, a step changes HELD only for OPEN and TEARDOWN, CTRL only for SETCTRL, BLKBUF only for RDBLK, RAW only
for LDRAW, MEASURE and the QUERY commands, and Q, N and OVF only for NORM, MEASURE and the QUERY commands. -/
def Obligations.EachRegisterHasItsOwnWriters : Prop :=
  ∀ s t : State, s.Inv → step s = .next t →
    (t.held ≠ s.held → s.current = some .openBus ∨ s.current = some .teardown) ∧
    (t.ctrl ≠ s.ctrl → ∃ ctl, s.current = some (.setctrl ctl)) ∧
    (t.blkbuf ≠ s.blkbuf → ∃ off len, s.current = some (.rdblk off len)) ∧
    (t.raw ≠ s.raw → ∃ i, s.current = some i ∧ (fetches i = true ∨ ∃ ch v, i = .ldraw ch v)) ∧
    (t.q ≠ s.q ∨ t.n ≠ s.n ∨ t.ovf ≠ s.ovf → ∃ i, s.current = some i ∧ (fetches i = true ∨ i = .norm))
end

