-- ==== Sys2Proof/Laws/Answers.lean ====
section
/-! SUPPORT. The answer a draw gives to each kind of request, and the bytes it carries (20_memory.md R57). -/

namespace Sys2Proof.Machine

@[simp] theorem answer_err (r : Request) : Draw.err.answer r = .err := rfl

@[simp] theorem answer_bw (b : Vector Byte 32) (c v : Byte) : (Draw.ok b).answer (.bw c v) = .ok [] := rfl
@[simp] theorem answer_acq (b : Vector Byte 32) : (Draw.ok b).answer .acq = .ok [] := rfl
@[simp] theorem answer_claim (b : Vector Byte 32) (a : BitVec 7) : (Draw.ok b).answer (.claim a) = .ok [] := rfl
@[simp] theorem answer_rela (b : Vector Byte 32) : (Draw.ok b).answer .rela = .ok [] := rfl
@[simp] theorem answer_relb (b : Vector Byte 32) : (Draw.ok b).answer .relb = .ok [] := rfl

@[simp] theorem answer_br (b : Vector Byte 32) (c : Byte) : (Draw.ok b).answer (.br c) = .ok [b[0]] := by
  refine congrArg Answer.ok (List.ext_getElem (by simp [Request.answerBytes]) ?_)
  intro i h1 h2
  obtain rfl : i = 0 := by simpa using h2
  simp

@[simp] theorem answer_wr (b : Vector Byte 32) (c : Byte) : (Draw.ok b).answer (.wr c) = .ok [b[0], b[1]] := by
  refine congrArg Answer.ok (List.ext_getElem (by simp [Request.answerBytes]) ?_)
  intro i h1 h2
  simp only [List.length_cons, List.length_nil] at h2
  interval_cases i <;> simp

@[simp] theorem answer_kr (b : Vector Byte 32) (c : Byte) (n : Nat) :
    (Draw.ok b).answer (.kr c n) = .ok (b.toList.take n) := rfl

/-- The bytes of a burst. -/
theorem take_eight (b : Vector Byte 32) :
    b.toList.take 8 = [b[0], b[1], b[2], b[3], b[4], b[5], b[6], b[7]] := by
  refine List.ext_getElem (by simp) ?_
  intro i h1 h2
  simp only [List.length_cons, List.length_nil] at h2
  interval_cases i <;> simp

/-- A success answer carries exactly the bytes of its request, up to 32 of them. -/
theorem answer_length (b : Vector Byte 32) (r : Request) (h : r.answerBytes ≤ 32) :
    ((Draw.ok b).answer r).bytes.length = r.answerBytes := by
  simp [Draw.answer, Answer.bytes, h]

/-- Little-endian assembly puts the second byte above the first. -/
theorem assemble16_eq_append (lo hi : Byte) : assemble16 lo hi = hi ++ lo := by
  refine BitVec.eq_of_toNat_eq ?_
  have h1 := lo.isLt
  have h2 := hi.isLt
  rw [assemble16, BitVec.toNat_or, BitVec.toNat_append, BitVec.toNat_shiftLeft, BitVec.toNat_setWidth,
    BitVec.toNat_setWidth, Nat.or_comm]
  rw [Nat.mod_eq_of_lt (a := hi.toNat) (by omega), Nat.mod_eq_of_lt (a := lo.toNat) (by omega),
    Nat.mod_eq_of_lt (by rw [Nat.shiftLeft_eq]; omega)]

/-- Zero extension puts zeros above (00_scope.md R8). -/
theorem setWidth_eq_zero_append (k : Nat) {w : Nat} (x : BitVec w) : x.setWidth (k + w) = 0#k ++ x := by
  refine BitVec.eq_of_getLsbD_eq fun i h => ?_
  rw [BitVec.getLsbD_setWidth, BitVec.getLsbD_append]
  by_cases h1 : i < w
  · simp [h1, h]
  · simp [h1, h, BitVec.getLsbD_of_ge x i (by omega)]

/-- A 16-bit value as DATA. -/
theorem assemble16_setWidth (lo hi : Byte) : (assemble16 lo hi).setWidth 32 = 0#16 ++ hi ++ lo := by
  rw [assemble16_eq_append]
  refine BitVec.eq_of_getLsbD_eq fun i h => ?_
  rw [BitVec.getLsbD_setWidth, BitVec.getLsbD_append, BitVec.getLsbD_append, BitVec.getLsbD_append]
  by_cases h1 : i < 8
  · simp [h1, h]
  · by_cases h2 : i - 8 < 8
    · simp [h1, h2, h]
    · simp [h1, h2, h, BitVec.getLsbD_of_ge hi (i - 8) (by omega)]

/-! ### The block buffer (40_transactor.md R107) -/

/-- Each entry after a store: one of the stored bytes, or what it held. -/
theorem storeBytes_getElem (bytes : List Byte) (buf : Vector Byte 32) (i j : Nat) (hj : j < 32) :
    (storeBytes buf i bytes)[j] = if i ≤ j then (bytes[j - i]?).getD buf[j] else buf[j] := by
  induction bytes generalizing buf i with
  | nil => simp [storeBytes]
  | cons b bs ih =>
    rw [storeBytes, ih]
    by_cases h1 : i + 1 ≤ j
    · have h2 : j - i = j - (i + 1) + 1 := by omega
      rw [if_pos h1, if_pos (by omega), h2, List.getElem?_cons_succ, Vector.getElem_setIfInBounds_ne hj (by omega)]
    · by_cases h3 : i = j
      · subst h3
        simp
      · rw [if_neg h1, if_neg (by omega), Vector.getElem_setIfInBounds_ne hj h3]

/-- A block store, entry by entry. -/
theorem storeBytes_take (buf b : Vector Byte 32) (n : Nat) :
    storeBytes buf 0 (b.toList.take n) = Vector.ofFn fun i : Fin 32 => if i.val < n then b[i] else buf[i] := by
  refine Vector.ext fun j hj => ?_
  rw [storeBytes_getElem _ _ _ _ hj]
  by_cases h : j < n
  · simp [h, hj]
  · simp [h]

/-! ### Command bytes of the named offsets (20_memory.md R51, R54) -/

@[simp] theorem commandByte_enable : commandByte enableOff = 0x80#8 := by decide
@[simp] theorem commandByte_atime : commandByte atimeOff = 0x81#8 := by decide
@[simp] theorem commandByte_control : commandByte controlOff = 0x8F#8 := by decide
@[simp] theorem commandByte_cdata : commandByte cdataOff = 0x94#8 := by decide
@[simp] theorem commandByte_cdata_high : commandByte (cdataOff + 1#5) = 0x95#8 := by decide
@[simp] theorem commandByte_rdata : commandByte rdataOff = 0x96#8 := by decide
@[simp] theorem commandByte_rdata_high : commandByte (rdataOff + 1#5) = 0x97#8 := by decide
@[simp] theorem commandByte_gdata : commandByte gdataOff = 0x98#8 := by decide
@[simp] theorem commandByte_gdata_high : commandByte (gdataOff + 1#5) = 0x99#8 := by decide
@[simp] theorem commandByte_bdata : commandByte bdataOff = 0x9A#8 := by decide
@[simp] theorem commandByte_bdata_high : commandByte (bdataOff + 1#5) = 0x9B#8 := by decide

/-- Every command byte is framed and holds its offset (R54). -/
theorem commandByte_framed (off : Offset) :
    framed (commandByte off) = true ∧ offsetOf (commandByte off) = off.toNat := by
  revert off; decide

/-- Draws that are all successes are a list of byte vectors. -/
theorem exists_map_ok (ds : List Draw) (h : ∀ d ∈ ds, d.isOk = true) : ∃ bs : List (Vector Byte 32), ds = bs.map Draw.ok := by
  induction ds with
  | nil => exact ⟨[], rfl⟩
  | cons d ds ih =>
    obtain ⟨bs, rfl⟩ := ih (fun x hx => h x (by simp [hx]))
    cases d with
    | err => simpa [Draw.isOk] using h .err (by simp)
    | ok b => exact ⟨b :: bs, rfl⟩

end Sys2Proof.Machine
end

