-- ==== Sys2Proof/Laws/Decode.lean ====
section
/-! SUPPORT. Command words by their OP byte: which row a word can match, and the OP of an encoded command. -/

namespace Sys2Proof

/-- A word's bits below OP do not reach its OP byte. -/
theorem opField_append (op : Byte) (x : BitVec 24) : opField (op ++ x) = op := by
  refine BitVec.eq_of_getLsbD_eq fun i h => ?_
  rw [opField, BitVec.getLsbD_extractLsb', BitVec.getLsbD_append]
  simp [h]

/-- A word is its OP byte above its other 24 bits. -/
theorem word_eq_append (w : Word) : w = opField w ++ w.extractLsb' 0 24 := by
  refine BitVec.eq_of_getLsbD_eq fun i h => ?_
  rw [BitVec.getLsbD_append, opField, BitVec.getLsbD_extractLsb', BitVec.getLsbD_extractLsb']
  by_cases h1 : i < 24
  · simp [h1]
  · have h2 : 24 + (i - 24) = i := by omega
    have h3 : i - 24 < 8 := by omega
    simp [h1, h2, h3]

/-- Every mask of the opcode map covers OP, so a row that covers a word has the word's OP (30_encoding.md R84). -/
theorem covers_opField {r : Row} (hr : r ∈ rows) {w : Word} (h : r.covers w = true) : opField w = opField r.value := by
  have hmask : ∀ r ∈ rows, opField r.mask = 0xFF#8 := by decide
  have hm := hmask r hr
  rw [Row.covers, beq_iff_eq] at h
  rw [← h]
  refine BitVec.eq_of_getLsbD_eq fun i hi => ?_
  have hb := congrArg (fun v => BitVec.getLsbD v i) hm
  simp only [opField, BitVec.getLsbD_extractLsb'] at hb ⊢
  rw [BitVec.getLsbD_and]
  interval_cases i <;> simp_all

/-- No two rows of the opcode map have the same OP (R83). -/
theorem row_eq_of_opField_eq {a b : Row} (ha : a ∈ rows) (hb : b ∈ rows) (h : opField a.value = opField b.value) :
    a = b :=
  List.inj_on_of_nodup_map (f := fun r : Row => opField r.value) (by decide) ha hb h

/-- The row that covers a word is the one the decoder finds (R84). -/
theorem find_of_covers {r : Row} (hr : r ∈ rows) {w : Word} (h : r.covers w = true) :
    rows.find? (fun x => x.covers w) = some r := by
  obtain ⟨r', hf⟩ := Option.isSome_iff_exists.mp
    (List.find?_isSome (p := fun x : Row => x.covers w).mpr ⟨r, hr, h⟩)
  have hm := List.mem_of_find?_eq_some hf
  have hc : r'.covers w = true := by simpa using List.find?_some hf
  rw [hf, row_eq_of_opField_eq hm hr (by rw [← covers_opField hm hc, ← covers_opField hr h])]

end Sys2Proof
end

