-- ==== Sys2Proof/Laws/Divider.lean ====
section
/-! SUPPORT. The divider's functions as natural numbers (43_divider.md R160-R163). -/

namespace Sys2Proof.Machine

/-- The exact quotient: it always fits in 24 bits (R161). -/
theorem quotient_toNat (c raw : Half) :
    (quotient c raw).toNat = if c.toNat = 0 then 0 else raw.toNat * 255 / c.toNat := by
  have hr := raw.isLt
  by_cases h : c.toNat = 0
  · have hc : c = 0#16 := BitVec.eq_of_toNat_eq (by simpa using h)
    simp [quotient, hc]
  · have hc : c ≠ 0#16 := fun e => h (by simp [e])
    have hle : raw.toNat * 255 / c.toNat ≤ raw.toNat * 255 := Nat.div_le_self ..
    rw [quotient, if_neg hc, if_neg h, BitVec.toNat_ofNat, Nat.mod_eq_of_lt (by omega)]

/-- No quotient is above 65535 × 255 (R161). -/
theorem quotient_le (c raw : Half) : (quotient c raw).toNat ≤ 65535 * 255 := by
  have hr := raw.isLt
  rw [quotient_toNat]
  split
  · omega
  · exact le_trans (Nat.div_le_self ..) (by omega)

/-- Under the zero guard every quotient is 0 (R162). -/
@[simp] theorem quotient_zero (raw : Half) : quotient 0#16 raw = 0#24 := rfl

theorem saturate_toNat (q : BitVec 24) : (saturate q).toNat = min q.toNat 255 := by
  rw [saturate, BitVec.toNat_ofNat, Nat.mod_eq_of_lt (by omega)]

theorem overflows_eq_true_iff (q : BitVec 24) : overflows q = true ↔ 255 < q.toNat := by simp [overflows]

/-- OVF, flag by flag (10_state.md R30). -/
theorem flags_getLsbD (q : Quotients) :
    q.flags.getLsbD 0 = overflows q.red ∧ q.flags.getLsbD 1 = overflows q.green ∧
      q.flags.getLsbD 2 = overflows q.blue := by
  unfold Quotients.flags
  cases overflows q.red <;> cases overflows q.green <;> cases overflows q.blue <;> decide

end Sys2Proof.Machine
end

