-- ==== Sys2Proof/Laws/State.lean ====
section
/-! SUPPORT. What each shared operation does to each field of State: one lemma a field, true by rfl. -/

namespace Sys2Proof.Machine

/-! ### respond -/

@[simp] theorem State.respond_state (s : State) (st : Status) (d : Word) : (s.respond st d).state = s.state := rfl
@[simp] theorem State.respond_held (s : State) (st : Status) (d : Word) : (s.respond st d).held = s.held := rfl
@[simp] theorem State.respond_ctrl (s : State) (st : Status) (d : Word) : (s.respond st d).ctrl = s.ctrl := rfl
@[simp] theorem State.respond_raw (s : State) (st : Status) (d : Word) : (s.respond st d).raw = s.raw := rfl
@[simp] theorem State.respond_q (s : State) (st : Status) (d : Word) : (s.respond st d).q = s.q := rfl
@[simp] theorem State.respond_n (s : State) (st : Status) (d : Word) : (s.respond st d).n = s.n := rfl
@[simp] theorem State.respond_ovf (s : State) (st : Status) (d : Word) : (s.respond st d).ovf = s.ovf := rfl
@[simp] theorem State.respond_blkbuf (s : State) (st : Status) (d : Word) : (s.respond st d).blkbuf = s.blkbuf := rfl
@[simp] theorem State.respond_seq (s : State) (st : Status) (d : Word) : (s.respond st d).seq = .idle := rfl
@[simp] theorem State.respond_log (s : State) (st : Status) (d : Word) : (s.respond st d).log = s.log := rfl
@[simp] theorem State.respond_commands (s : State) (st : Status) (d : Word) :
    (s.respond st d).commands = s.commands := rfl
@[simp] theorem State.respond_draws (s : State) (st : Status) (d : Word) : (s.respond st d).draws = s.draws := rfl
@[simp] theorem State.respond_responses (s : State) (st : Status) (d : Word) :
    (s.respond st d).responses = s.responses ++ [⟨st, d⟩] := rfl
@[simp] theorem State.respond_hardFail (s : State) (st : Status) (d : Word) :
    (s.respond st d).hardFail = s.hardFail := rfl
@[simp] theorem State.respond_w16 (s : State) (st : Status) (d : Word) : (s.respond st d).w16 = s.w16 := rfl
@[simp] theorem State.respond_burst (s : State) (st : Status) (d : Word) : (s.respond st d).burst = s.burst := rfl

/-! ### raise -/

@[simp] theorem State.raise_state (s : State) (e : Status) (d : Word) : (s.raise e d).state = s.state := rfl
@[simp] theorem State.raise_held (s : State) (e : Status) (d : Word) : (s.raise e d).held = s.held := rfl
@[simp] theorem State.raise_ctrl (s : State) (e : Status) (d : Word) : (s.raise e d).ctrl = s.ctrl := rfl
@[simp] theorem State.raise_raw (s : State) (e : Status) (d : Word) : (s.raise e d).raw = s.raw := rfl
@[simp] theorem State.raise_q (s : State) (e : Status) (d : Word) : (s.raise e d).q = s.q := rfl
@[simp] theorem State.raise_n (s : State) (e : Status) (d : Word) : (s.raise e d).n = s.n := rfl
@[simp] theorem State.raise_ovf (s : State) (e : Status) (d : Word) : (s.raise e d).ovf = s.ovf := rfl
@[simp] theorem State.raise_blkbuf (s : State) (e : Status) (d : Word) : (s.raise e d).blkbuf = s.blkbuf := rfl
@[simp] theorem State.raise_seq (s : State) (e : Status) (d : Word) : (s.raise e d).seq = .idle := rfl
@[simp] theorem State.raise_log (s : State) (e : Status) (d : Word) : (s.raise e d).log = s.log := rfl
@[simp] theorem State.raise_commands (s : State) (e : Status) (d : Word) : (s.raise e d).commands = s.commands := rfl
@[simp] theorem State.raise_draws (s : State) (e : Status) (d : Word) : (s.raise e d).draws = s.draws := rfl
@[simp] theorem State.raise_responses (s : State) (e : Status) (d : Word) :
    (s.raise e d).responses = s.responses ++ [⟨e, d⟩] := rfl
@[simp] theorem State.raise_hardFail (s : State) (e : Status) (d : Word) : (s.raise e d).hardFail = s.hardFail := rfl
@[simp] theorem State.raise_w16 (s : State) (e : Status) (d : Word) : (s.raise e d).w16 = s.w16 := rfl
@[simp] theorem State.raise_burst (s : State) (e : Status) (d : Word) : (s.raise e d).burst = s.burst := rfl

/-! ### illegal -/

@[simp] theorem State.illegal_state (s : State) : s.illegal.state = s.state := rfl
@[simp] theorem State.illegal_held (s : State) : s.illegal.held = s.held := rfl
@[simp] theorem State.illegal_ctrl (s : State) : s.illegal.ctrl = s.ctrl := rfl
@[simp] theorem State.illegal_raw (s : State) : s.illegal.raw = s.raw := rfl
@[simp] theorem State.illegal_q (s : State) : s.illegal.q = s.q := rfl
@[simp] theorem State.illegal_n (s : State) : s.illegal.n = s.n := rfl
@[simp] theorem State.illegal_ovf (s : State) : s.illegal.ovf = s.ovf := rfl
@[simp] theorem State.illegal_blkbuf (s : State) : s.illegal.blkbuf = s.blkbuf := rfl
@[simp] theorem State.illegal_seq (s : State) : s.illegal.seq = .idle := rfl
@[simp] theorem State.illegal_log (s : State) : s.illegal.log = s.log := rfl
@[simp] theorem State.illegal_commands (s : State) : s.illegal.commands = s.commands := rfl
@[simp] theorem State.illegal_draws (s : State) : s.illegal.draws = s.draws := rfl
@[simp] theorem State.illegal_responses (s : State) :
    s.illegal.responses = s.responses ++ [⟨.illegalCommand, 0#32⟩] := rfl
@[simp] theorem State.illegal_hardFail (s : State) : s.illegal.hardFail = s.hardFail := rfl
@[simp] theorem State.illegal_w16 (s : State) : s.illegal.w16 = s.w16 := rfl
@[simp] theorem State.illegal_burst (s : State) : s.illegal.burst = s.burst := rfl

/-! ### busErrorAt -/

@[simp] theorem State.busErrorAt_state (s : State) (k : Nat) : (s.busErrorAt k).state = s.state := rfl
@[simp] theorem State.busErrorAt_held (s : State) (k : Nat) : (s.busErrorAt k).held = s.held := rfl
@[simp] theorem State.busErrorAt_ctrl (s : State) (k : Nat) : (s.busErrorAt k).ctrl = s.ctrl := rfl
@[simp] theorem State.busErrorAt_raw (s : State) (k : Nat) : (s.busErrorAt k).raw = s.raw := rfl
@[simp] theorem State.busErrorAt_q (s : State) (k : Nat) : (s.busErrorAt k).q = s.q := rfl
@[simp] theorem State.busErrorAt_n (s : State) (k : Nat) : (s.busErrorAt k).n = s.n := rfl
@[simp] theorem State.busErrorAt_ovf (s : State) (k : Nat) : (s.busErrorAt k).ovf = s.ovf := rfl
@[simp] theorem State.busErrorAt_blkbuf (s : State) (k : Nat) : (s.busErrorAt k).blkbuf = s.blkbuf := rfl
@[simp] theorem State.busErrorAt_seq (s : State) (k : Nat) : (s.busErrorAt k).seq = .idle := rfl
@[simp] theorem State.busErrorAt_log (s : State) (k : Nat) : (s.busErrorAt k).log = s.log := rfl
@[simp] theorem State.busErrorAt_commands (s : State) (k : Nat) : (s.busErrorAt k).commands = s.commands := rfl
@[simp] theorem State.busErrorAt_draws (s : State) (k : Nat) : (s.busErrorAt k).draws = s.draws := rfl
@[simp] theorem State.busErrorAt_responses (s : State) (k : Nat) :
    (s.busErrorAt k).responses = s.responses ++ [⟨.busError, dataOf k⟩] := rfl
@[simp] theorem State.busErrorAt_hardFail (s : State) (k : Nat) : (s.busErrorAt k).hardFail = s.hardFail := rfl
@[simp] theorem State.busErrorAt_w16 (s : State) (k : Nat) : (s.busErrorAt k).w16 = s.w16 := rfl
@[simp] theorem State.busErrorAt_burst (s : State) (k : Nat) : (s.busErrorAt k).burst = s.burst := rfl

/-! ### issue -/

@[simp] theorem State.issue_state (s : State) (cmd : Word) (w : Wait) (k : Nat) :
    (s.issue cmd w k).state = s.state := rfl
@[simp] theorem State.issue_held (s : State) (cmd : Word) (w : Wait) (k : Nat) : (s.issue cmd w k).held = s.held := rfl
@[simp] theorem State.issue_ctrl (s : State) (cmd : Word) (w : Wait) (k : Nat) : (s.issue cmd w k).ctrl = s.ctrl := rfl
@[simp] theorem State.issue_raw (s : State) (cmd : Word) (w : Wait) (k : Nat) : (s.issue cmd w k).raw = s.raw := rfl
@[simp] theorem State.issue_q (s : State) (cmd : Word) (w : Wait) (k : Nat) : (s.issue cmd w k).q = s.q := rfl
@[simp] theorem State.issue_n (s : State) (cmd : Word) (w : Wait) (k : Nat) : (s.issue cmd w k).n = s.n := rfl
@[simp] theorem State.issue_ovf (s : State) (cmd : Word) (w : Wait) (k : Nat) : (s.issue cmd w k).ovf = s.ovf := rfl
@[simp] theorem State.issue_blkbuf (s : State) (cmd : Word) (w : Wait) (k : Nat) :
    (s.issue cmd w k).blkbuf = s.blkbuf := rfl
@[simp] theorem State.issue_seq (s : State) (cmd : Word) (w : Wait) (k : Nat) :
    (s.issue cmd w k).seq = .busy cmd w k := rfl
@[simp] theorem State.issue_log (s : State) (cmd : Word) (w : Wait) (k : Nat) : (s.issue cmd w k).log = s.log := rfl
@[simp] theorem State.issue_commands (s : State) (cmd : Word) (w : Wait) (k : Nat) :
    (s.issue cmd w k).commands = s.commands := rfl
@[simp] theorem State.issue_draws (s : State) (cmd : Word) (w : Wait) (k : Nat) :
    (s.issue cmd w k).draws = s.draws := rfl
@[simp] theorem State.issue_responses (s : State) (cmd : Word) (w : Wait) (k : Nat) :
    (s.issue cmd w k).responses = s.responses := rfl
@[simp] theorem State.issue_hardFail (s : State) (cmd : Word) (w : Wait) (k : Nat) :
    (s.issue cmd w k).hardFail = s.hardFail := rfl
@[simp] theorem State.issue_w16 (s : State) (cmd : Word) (w : Wait) (k : Nat) : (s.issue cmd w k).w16 = s.w16 := rfl
@[simp] theorem State.issue_burst (s : State) (cmd : Word) (w : Wait) (k : Nat) :
    (s.issue cmd w k).burst = s.burst := rfl

/-! ### record -/

@[simp] theorem State.record_state (s : State) (r : Request) (d : Draw) : (s.record r d).state = s.state := rfl
@[simp] theorem State.record_held (s : State) (r : Request) (d : Draw) : (s.record r d).held = s.held := rfl
@[simp] theorem State.record_ctrl (s : State) (r : Request) (d : Draw) : (s.record r d).ctrl = s.ctrl := rfl
@[simp] theorem State.record_raw (s : State) (r : Request) (d : Draw) : (s.record r d).raw = s.raw := rfl
@[simp] theorem State.record_q (s : State) (r : Request) (d : Draw) : (s.record r d).q = s.q := rfl
@[simp] theorem State.record_n (s : State) (r : Request) (d : Draw) : (s.record r d).n = s.n := rfl
@[simp] theorem State.record_ovf (s : State) (r : Request) (d : Draw) : (s.record r d).ovf = s.ovf := rfl
@[simp] theorem State.record_blkbuf (s : State) (r : Request) (d : Draw) : (s.record r d).blkbuf = s.blkbuf := rfl
@[simp] theorem State.record_seq (s : State) (r : Request) (d : Draw) : (s.record r d).seq = s.seq := rfl
@[simp] theorem State.record_log (s : State) (r : Request) (d : Draw) :
    (s.record r d).log = s.log ++ [⟨r, d.answer r⟩] := rfl
@[simp] theorem State.record_commands (s : State) (r : Request) (d : Draw) : (s.record r d).commands = s.commands := rfl
@[simp] theorem State.record_draws (s : State) (r : Request) (d : Draw) : (s.record r d).draws = s.draws := rfl
@[simp] theorem State.record_responses (s : State) (r : Request) (d : Draw) :
    (s.record r d).responses = s.responses := rfl
@[simp] theorem State.record_hardFail (s : State) (r : Request) (d : Draw) : (s.record r d).hardFail = s.hardFail := rfl
@[simp] theorem State.record_w16 (s : State) (r : Request) (d : Draw) : (s.record r d).w16 = s.w16 := rfl
@[simp] theorem State.record_burst (s : State) (r : Request) (d : Draw) : (s.record r d).burst = s.burst := rfl

/-! ### setState -/

@[simp] theorem State.setState_state (s : State) (st : DriverState) : (s.setState st).state = st := rfl
@[simp] theorem State.setState_held (s : State) (st : DriverState) : (s.setState st).held = s.held := rfl
@[simp] theorem State.setState_ctrl (s : State) (st : DriverState) : (s.setState st).ctrl = s.ctrl := rfl
@[simp] theorem State.setState_raw (s : State) (st : DriverState) : (s.setState st).raw = s.raw := rfl
@[simp] theorem State.setState_q (s : State) (st : DriverState) : (s.setState st).q = s.q := rfl
@[simp] theorem State.setState_n (s : State) (st : DriverState) : (s.setState st).n = s.n := rfl
@[simp] theorem State.setState_ovf (s : State) (st : DriverState) : (s.setState st).ovf = s.ovf := rfl
@[simp] theorem State.setState_blkbuf (s : State) (st : DriverState) : (s.setState st).blkbuf = s.blkbuf := rfl
@[simp] theorem State.setState_seq (s : State) (st : DriverState) : (s.setState st).seq = s.seq := rfl
@[simp] theorem State.setState_log (s : State) (st : DriverState) : (s.setState st).log = s.log := rfl
@[simp] theorem State.setState_commands (s : State) (st : DriverState) : (s.setState st).commands = s.commands := rfl
@[simp] theorem State.setState_draws (s : State) (st : DriverState) : (s.setState st).draws = s.draws := rfl
@[simp] theorem State.setState_responses (s : State) (st : DriverState) : (s.setState st).responses = s.responses := rfl
@[simp] theorem State.setState_hardFail (s : State) (st : DriverState) : (s.setState st).hardFail = s.hardFail := rfl
@[simp] theorem State.setState_w16 (s : State) (st : DriverState) : (s.setState st).w16 = s.w16 := rfl
@[simp] theorem State.setState_burst (s : State) (st : DriverState) : (s.setState st).burst = s.burst := rfl

/-! ### setHeld -/

@[simp] theorem State.setHeld_state (s : State) (h : Held) : (s.setHeld h).state = s.state := rfl
@[simp] theorem State.setHeld_held (s : State) (h : Held) : (s.setHeld h).held = h := rfl
@[simp] theorem State.setHeld_ctrl (s : State) (h : Held) : (s.setHeld h).ctrl = s.ctrl := rfl
@[simp] theorem State.setHeld_raw (s : State) (h : Held) : (s.setHeld h).raw = s.raw := rfl
@[simp] theorem State.setHeld_q (s : State) (h : Held) : (s.setHeld h).q = s.q := rfl
@[simp] theorem State.setHeld_n (s : State) (h : Held) : (s.setHeld h).n = s.n := rfl
@[simp] theorem State.setHeld_ovf (s : State) (h : Held) : (s.setHeld h).ovf = s.ovf := rfl
@[simp] theorem State.setHeld_blkbuf (s : State) (h : Held) : (s.setHeld h).blkbuf = s.blkbuf := rfl
@[simp] theorem State.setHeld_seq (s : State) (h : Held) : (s.setHeld h).seq = s.seq := rfl
@[simp] theorem State.setHeld_log (s : State) (h : Held) : (s.setHeld h).log = s.log := rfl
@[simp] theorem State.setHeld_commands (s : State) (h : Held) : (s.setHeld h).commands = s.commands := rfl
@[simp] theorem State.setHeld_draws (s : State) (h : Held) : (s.setHeld h).draws = s.draws := rfl
@[simp] theorem State.setHeld_responses (s : State) (h : Held) : (s.setHeld h).responses = s.responses := rfl
@[simp] theorem State.setHeld_hardFail (s : State) (h : Held) : (s.setHeld h).hardFail = s.hardFail := rfl
@[simp] theorem State.setHeld_w16 (s : State) (h : Held) : (s.setHeld h).w16 = s.w16 := rfl
@[simp] theorem State.setHeld_burst (s : State) (h : Held) : (s.setHeld h).burst = s.burst := rfl

/-! ### setRaw -/

@[simp] theorem State.setRaw_state (s : State) (r : RawChannels) : (s.setRaw r).state = s.state := rfl
@[simp] theorem State.setRaw_held (s : State) (r : RawChannels) : (s.setRaw r).held = s.held := rfl
@[simp] theorem State.setRaw_ctrl (s : State) (r : RawChannels) : (s.setRaw r).ctrl = s.ctrl := rfl
@[simp] theorem State.setRaw_raw (s : State) (r : RawChannels) : (s.setRaw r).raw = r := rfl
@[simp] theorem State.setRaw_q (s : State) (r : RawChannels) : (s.setRaw r).q = s.q := rfl
@[simp] theorem State.setRaw_n (s : State) (r : RawChannels) : (s.setRaw r).n = s.n := rfl
@[simp] theorem State.setRaw_ovf (s : State) (r : RawChannels) : (s.setRaw r).ovf = s.ovf := rfl
@[simp] theorem State.setRaw_blkbuf (s : State) (r : RawChannels) : (s.setRaw r).blkbuf = s.blkbuf := rfl
@[simp] theorem State.setRaw_seq (s : State) (r : RawChannels) : (s.setRaw r).seq = s.seq := rfl
@[simp] theorem State.setRaw_log (s : State) (r : RawChannels) : (s.setRaw r).log = s.log := rfl
@[simp] theorem State.setRaw_commands (s : State) (r : RawChannels) : (s.setRaw r).commands = s.commands := rfl
@[simp] theorem State.setRaw_draws (s : State) (r : RawChannels) : (s.setRaw r).draws = s.draws := rfl
@[simp] theorem State.setRaw_responses (s : State) (r : RawChannels) : (s.setRaw r).responses = s.responses := rfl
@[simp] theorem State.setRaw_hardFail (s : State) (r : RawChannels) : (s.setRaw r).hardFail = s.hardFail := rfl
@[simp] theorem State.setRaw_w16 (s : State) (r : RawChannels) : (s.setRaw r).w16 = s.w16 := rfl
@[simp] theorem State.setRaw_burst (s : State) (r : RawChannels) : (s.setRaw r).burst = s.burst := rfl

/-! ### setCtrl -/

@[simp] theorem State.setCtrl_state (s : State) (c : Byte) : (s.setCtrl c).state = s.state := rfl
@[simp] theorem State.setCtrl_held (s : State) (c : Byte) : (s.setCtrl c).held = s.held := rfl
@[simp] theorem State.setCtrl_ctrl (s : State) (c : Byte) : (s.setCtrl c).ctrl = c := rfl
@[simp] theorem State.setCtrl_raw (s : State) (c : Byte) : (s.setCtrl c).raw = s.raw := rfl
@[simp] theorem State.setCtrl_q (s : State) (c : Byte) : (s.setCtrl c).q = s.q := rfl
@[simp] theorem State.setCtrl_n (s : State) (c : Byte) : (s.setCtrl c).n = s.n := rfl
@[simp] theorem State.setCtrl_ovf (s : State) (c : Byte) : (s.setCtrl c).ovf = s.ovf := rfl
@[simp] theorem State.setCtrl_blkbuf (s : State) (c : Byte) : (s.setCtrl c).blkbuf = s.blkbuf := rfl
@[simp] theorem State.setCtrl_seq (s : State) (c : Byte) : (s.setCtrl c).seq = s.seq := rfl
@[simp] theorem State.setCtrl_log (s : State) (c : Byte) : (s.setCtrl c).log = s.log := rfl
@[simp] theorem State.setCtrl_commands (s : State) (c : Byte) : (s.setCtrl c).commands = s.commands := rfl
@[simp] theorem State.setCtrl_draws (s : State) (c : Byte) : (s.setCtrl c).draws = s.draws := rfl
@[simp] theorem State.setCtrl_responses (s : State) (c : Byte) : (s.setCtrl c).responses = s.responses := rfl

/-! ### setBlock -/

@[simp] theorem State.setBlock_state (s : State) (bs : List Byte) : (s.setBlock bs).state = s.state := rfl
@[simp] theorem State.setBlock_held (s : State) (bs : List Byte) : (s.setBlock bs).held = s.held := rfl
@[simp] theorem State.setBlock_ctrl (s : State) (bs : List Byte) : (s.setBlock bs).ctrl = s.ctrl := rfl
@[simp] theorem State.setBlock_raw (s : State) (bs : List Byte) : (s.setBlock bs).raw = s.raw := rfl
@[simp] theorem State.setBlock_q (s : State) (bs : List Byte) : (s.setBlock bs).q = s.q := rfl
@[simp] theorem State.setBlock_n (s : State) (bs : List Byte) : (s.setBlock bs).n = s.n := rfl
@[simp] theorem State.setBlock_ovf (s : State) (bs : List Byte) : (s.setBlock bs).ovf = s.ovf := rfl
@[simp] theorem State.setBlock_blkbuf (s : State) (bs : List Byte) :
    (s.setBlock bs).blkbuf = storeBytes s.blkbuf 0 bs := rfl
@[simp] theorem State.setBlock_seq (s : State) (bs : List Byte) : (s.setBlock bs).seq = s.seq := rfl
@[simp] theorem State.setBlock_log (s : State) (bs : List Byte) : (s.setBlock bs).log = s.log := rfl
@[simp] theorem State.setBlock_commands (s : State) (bs : List Byte) : (s.setBlock bs).commands = s.commands := rfl
@[simp] theorem State.setBlock_draws (s : State) (bs : List Byte) : (s.setBlock bs).draws = s.draws := rfl
@[simp] theorem State.setBlock_responses (s : State) (bs : List Byte) : (s.setBlock bs).responses = s.responses := rfl
@[simp] theorem State.setBlock_hardFail (s : State) (bs : List Byte) : (s.setBlock bs).hardFail = s.hardFail := rfl
@[simp] theorem State.setBlock_w16 (s : State) (bs : List Byte) : (s.setBlock bs).w16 = s.w16 := rfl
@[simp] theorem State.setBlock_burst (s : State) (bs : List Byte) : (s.setBlock bs).burst = s.burst := rfl

/-! ### setDraws -/

@[simp] theorem State.setDraws_state (s : State) (ds : List Draw) : (s.setDraws ds).state = s.state := rfl
@[simp] theorem State.setDraws_held (s : State) (ds : List Draw) : (s.setDraws ds).held = s.held := rfl
@[simp] theorem State.setDraws_ctrl (s : State) (ds : List Draw) : (s.setDraws ds).ctrl = s.ctrl := rfl
@[simp] theorem State.setDraws_raw (s : State) (ds : List Draw) : (s.setDraws ds).raw = s.raw := rfl
@[simp] theorem State.setDraws_q (s : State) (ds : List Draw) : (s.setDraws ds).q = s.q := rfl
@[simp] theorem State.setDraws_n (s : State) (ds : List Draw) : (s.setDraws ds).n = s.n := rfl
@[simp] theorem State.setDraws_ovf (s : State) (ds : List Draw) : (s.setDraws ds).ovf = s.ovf := rfl
@[simp] theorem State.setDraws_blkbuf (s : State) (ds : List Draw) : (s.setDraws ds).blkbuf = s.blkbuf := rfl
@[simp] theorem State.setDraws_seq (s : State) (ds : List Draw) : (s.setDraws ds).seq = s.seq := rfl
@[simp] theorem State.setDraws_log (s : State) (ds : List Draw) : (s.setDraws ds).log = s.log := rfl
@[simp] theorem State.setDraws_commands (s : State) (ds : List Draw) : (s.setDraws ds).commands = s.commands := rfl
@[simp] theorem State.setDraws_draws (s : State) (ds : List Draw) : (s.setDraws ds).draws = ds := rfl
@[simp] theorem State.setDraws_responses (s : State) (ds : List Draw) : (s.setDraws ds).responses = s.responses := rfl
@[simp] theorem State.setDraws_hardFail (s : State) (ds : List Draw) : (s.setDraws ds).hardFail = s.hardFail := rfl
@[simp] theorem State.setDraws_w16 (s : State) (ds : List Draw) : (s.setDraws ds).w16 = s.w16 := rfl
@[simp] theorem State.setDraws_burst (s : State) (ds : List Draw) : (s.setDraws ds).burst = s.burst := rfl

/-! ### setCommands -/

@[simp] theorem State.setCommands_state (s : State) (ws : List Word) : (s.setCommands ws).state = s.state := rfl
@[simp] theorem State.setCommands_held (s : State) (ws : List Word) : (s.setCommands ws).held = s.held := rfl
@[simp] theorem State.setCommands_ctrl (s : State) (ws : List Word) : (s.setCommands ws).ctrl = s.ctrl := rfl
@[simp] theorem State.setCommands_raw (s : State) (ws : List Word) : (s.setCommands ws).raw = s.raw := rfl
@[simp] theorem State.setCommands_q (s : State) (ws : List Word) : (s.setCommands ws).q = s.q := rfl
@[simp] theorem State.setCommands_n (s : State) (ws : List Word) : (s.setCommands ws).n = s.n := rfl
@[simp] theorem State.setCommands_ovf (s : State) (ws : List Word) : (s.setCommands ws).ovf = s.ovf := rfl
@[simp] theorem State.setCommands_blkbuf (s : State) (ws : List Word) : (s.setCommands ws).blkbuf = s.blkbuf := rfl
@[simp] theorem State.setCommands_seq (s : State) (ws : List Word) : (s.setCommands ws).seq = s.seq := rfl
@[simp] theorem State.setCommands_log (s : State) (ws : List Word) : (s.setCommands ws).log = s.log := rfl
@[simp] theorem State.setCommands_commands (s : State) (ws : List Word) : (s.setCommands ws).commands = ws := rfl
@[simp] theorem State.setCommands_draws (s : State) (ws : List Word) : (s.setCommands ws).draws = s.draws := rfl
@[simp] theorem State.setCommands_responses (s : State) (ws : List Word) :
    (s.setCommands ws).responses = s.responses := rfl
@[simp] theorem State.setCommands_hardFail (s : State) (ws : List Word) :
    (s.setCommands ws).hardFail = s.hardFail := rfl
@[simp] theorem State.setCommands_w16 (s : State) (ws : List Word) : (s.setCommands ws).w16 = s.w16 := rfl
@[simp] theorem State.setCommands_burst (s : State) (ws : List Word) : (s.setCommands ws).burst = s.burst := rfl

/-! ### divide -/

@[simp] theorem State.divide_state (s : State) : s.divide.state = s.state := rfl
@[simp] theorem State.divide_held (s : State) : s.divide.held = s.held := rfl
@[simp] theorem State.divide_ctrl (s : State) : s.divide.ctrl = s.ctrl := rfl
@[simp] theorem State.divide_raw (s : State) : s.divide.raw = s.raw := rfl
@[simp] theorem State.divide_q (s : State) : s.divide.q = s.raw.quotients := rfl
@[simp] theorem State.divide_n (s : State) : s.divide.n = s.raw.quotients.saturated := rfl
@[simp] theorem State.divide_ovf (s : State) : s.divide.ovf = s.raw.quotients.flags := rfl
@[simp] theorem State.divide_blkbuf (s : State) : s.divide.blkbuf = s.blkbuf := rfl
@[simp] theorem State.divide_seq (s : State) : s.divide.seq = s.seq := rfl
@[simp] theorem State.divide_log (s : State) : s.divide.log = s.log := rfl
@[simp] theorem State.divide_commands (s : State) : s.divide.commands = s.commands := rfl
@[simp] theorem State.divide_draws (s : State) : s.divide.draws = s.draws := rfl
@[simp] theorem State.divide_responses (s : State) : s.divide.responses = s.responses := rfl
@[simp] theorem State.divide_hardFail (s : State) : s.divide.hardFail = s.hardFail := rfl
@[simp] theorem State.divide_w16 (s : State) : s.divide.w16 = s.w16 := rfl
@[simp] theorem State.divide_burst (s : State) : s.divide.burst = s.burst := rfl

/-! ### byteReadError: the hard-fail policy writes STATE -/

@[simp] theorem State.byteReadError_state (s : State) (k : Nat) :
    (s.byteReadError k).state = if s.hardFail then .failed else s.state := by
  unfold State.byteReadError; split <;> rfl
@[simp] theorem State.byteReadError_held (s : State) (k : Nat) :
    (s.byteReadError k).held = s.held := by
  unfold State.byteReadError; split <;> rfl
@[simp] theorem State.byteReadError_ctrl (s : State) (k : Nat) :
    (s.byteReadError k).ctrl = s.ctrl := by
  unfold State.byteReadError; split <;> rfl
@[simp] theorem State.byteReadError_raw (s : State) (k : Nat) :
    (s.byteReadError k).raw = s.raw := by
  unfold State.byteReadError; split <;> rfl
@[simp] theorem State.byteReadError_q (s : State) (k : Nat) :
    (s.byteReadError k).q = s.q := by
  unfold State.byteReadError; split <;> rfl
@[simp] theorem State.byteReadError_n (s : State) (k : Nat) :
    (s.byteReadError k).n = s.n := by
  unfold State.byteReadError; split <;> rfl
@[simp] theorem State.byteReadError_ovf (s : State) (k : Nat) :
    (s.byteReadError k).ovf = s.ovf := by
  unfold State.byteReadError; split <;> rfl
@[simp] theorem State.byteReadError_blkbuf (s : State) (k : Nat) :
    (s.byteReadError k).blkbuf = s.blkbuf := by
  unfold State.byteReadError; split <;> rfl
@[simp] theorem State.byteReadError_seq (s : State) (k : Nat) :
    (s.byteReadError k).seq = .idle := by
  unfold State.byteReadError; split <;> rfl
@[simp] theorem State.byteReadError_log (s : State) (k : Nat) :
    (s.byteReadError k).log = s.log := by
  unfold State.byteReadError; split <;> rfl
@[simp] theorem State.byteReadError_commands (s : State) (k : Nat) :
    (s.byteReadError k).commands = s.commands := by
  unfold State.byteReadError; split <;> rfl
@[simp] theorem State.byteReadError_draws (s : State) (k : Nat) :
    (s.byteReadError k).draws = s.draws := by
  unfold State.byteReadError; split <;> rfl
@[simp] theorem State.byteReadError_responses (s : State) (k : Nat) :
    (s.byteReadError k).responses = s.responses ++ [⟨.busError, dataOf k⟩] := by
  unfold State.byteReadError; split <;> rfl

end Sys2Proof.Machine
end

