-- ==== Sys2Proof/Laws/Sequencer.lean ====
section
/-! SUPPORT. The sequencer's operations: when a run stops, one answer at a time, what an answer can do, and what it leaves
alone. -/

namespace Sys2Proof.Machine

/-! ### Reading a run one answer at a time -/

theorem run_idle {s : State} (h : s.seq = .idle) (ds : List Draw) : s.run ds = s.setDraws ds := by
  cases ds <;> simp [State.run, h]

theorem run_busy {s : State} {cmd : Word} {w : Wait} {k : Nat} (h : s.seq = .busy cmd w k) (d : Draw)
    (ds : List Draw) : s.run (d :: ds) = ((s.record w.request d).after cmd w k d).run ds := by
  simp [State.run, State.answered, h]

@[simp] theorem run_nil (s : State) : s.run [] = s.setDraws [] := rfl

theorem settle_idle {s : State} (h : s.seq = .idle) : s.settle = s := by
  rw [State.settle, run_idle h]; rfl

theorem settle_silent {s : State} (h : s.draws = []) : s.settle = s := by
  rw [State.settle, h, run_nil, ← h]; rfl

/-! ### The forms a command's run goes through -/

@[simp] theorem run_issue (s : State) (cmd : Word) (w : Wait) (k : Nat) (d : Draw) (ds : List Draw) :
    (s.issue cmd w k).run (d :: ds) = (((s.issue cmd w k).record w.request d).after cmd w k d).run ds :=
  run_busy rfl d ds

@[simp] theorem run_respond (s : State) (st : Status) (v : Word) (ds : List Draw) :
    (s.respond st v).run ds = (s.respond st v).setDraws ds := run_idle rfl ds

@[simp] theorem run_raise (s : State) (e : Status) (v : Word) (ds : List Draw) :
    (s.raise e v).run ds = (s.raise e v).setDraws ds := run_idle rfl ds

@[simp] theorem run_busErrorAt (s : State) (k : Nat) (ds : List Draw) :
    (s.busErrorAt k).run ds = (s.busErrorAt k).setDraws ds := run_idle rfl ds

@[simp] theorem run_byteReadError (s : State) (k : Nat) (ds : List Draw) :
    (s.byteReadError k).run ds = (s.byteReadError k).setDraws ds := run_idle (State.byteReadError_seq ..) ds

@[simp] theorem run_finishFetch (s : State) (rep : Report) (r : RawChannels) (ds : List Draw) :
    (s.finishFetch rep r).run ds = (s.finishFetch rep r).setDraws ds := run_idle rfl ds

@[simp] theorem run_finishTeardown (s : State) (m : Word) (ds : List Draw) :
    (s.finishTeardown m).run ds = (s.finishTeardown m).setDraws ds := run_idle rfl ds

/-! ### What follows an answer neither reads nor writes the scripts of host and transport -/

/-- The state with other scripts. -/
def State.withScripts (s : State) (c : List Word) (x : List Draw) : State := (s.setCommands c).setDraws x

theorem setDraws_eq_withScripts (s : State) (x : List Draw) : s.setDraws x = s.withScripts s.commands x := rfl

@[simp] theorem withScripts_seq (s : State) (c : List Word) (x : List Draw) : (s.withScripts c x).seq = s.seq := rfl

theorem ite_withScripts (p : Prop) [Decidable p] (a b : State) (c : List Word) (x : List Draw) :
    (if p then a.withScripts c x else b.withScripts c x) = (if p then a else b).withScripts c x := by
  split <;> rfl

theorem beginRead16_withScripts (s : State) (cmd : Word) (u : Use16) (o : Offset) (k : Nat) (c : List Word)
    (x : List Draw) : (s.withScripts c x).beginRead16 cmd u o k = (s.beginRead16 cmd u o k).withScripts c x :=
  ite_withScripts (s.w16 = true) (s.issue cmd (.nativeWord u o) k) (s.issue cmd (.lowByte u o) k) c x

theorem byteReadError_withScripts (s : State) (k : Nat) (c : List Word) (x : List Draw) :
    (s.withScripts c x).byteReadError k = (s.byteReadError k).withScripts c x :=
  congrArg (State.raise · .busError (dataOf k)) (ite_withScripts (s.hardFail = true) (s.setState .failed) s c x)

theorem teardownBus_withScripts (s : State) (cmd m : Word) (k : Nat) (c : List Word) (x : List Draw) :
    (s.withScripts c x).teardownBus cmd m k = (s.teardownBus cmd m k).withScripts c x :=
  ite_withScripts (s.held.bus = true) (s.issue cmd (.releaseBus m) k) (s.finishTeardown m) c x

theorem deliver16_withScripts (s : State) (cmd : Word) (u : Use16) (v : Half) (k : Nat) (c : List Word)
    (x : List Draw) : (s.withScripts c x).deliver16 cmd u v k = (s.deliver16 cmd u v k).withScripts c x := by
  cases u with
  | rd16 => rfl
  | blue rep => cases rep <;> rfl
  | _ => exact beginRead16_withScripts ..

theorem after_withScripts (s : State) (cmd : Word) (w : Wait) (k : Nat) (d : Draw) (c : List Word) (x : List Draw) :
    (s.withScripts c x).after cmd w k d = (s.after cmd w k d).withScripts c x := by
  cases d with
  | err =>
    cases w <;> first | exact byteReadError_withScripts .. | rfl | skip
    exact teardownBus_withScripts (s.setHeld { s.held with addr := false }) ..
  | ok b =>
    cases w with
    | highByte => exact deliver16_withScripts ..
    | nativeWord => exact deliver16_withScripts ..
    | releaseAddr => exact teardownBus_withScripts (s.setHeld { s.held with addr := false }) ..
    | burst rep => cases rep <;> rfl
    | configWrite j => cases j <;> rfl
    | _ => rfl

theorem run_withScripts (s : State) (ds : List Draw) (c : List Word) (x : List Draw) :
    (s.withScripts c x).run ds = (s.run ds).setCommands c := by
  induction ds generalizing s with
  | nil => rfl
  | cons d ds ih =>
    cases h : s.seq with
    | idle => rw [run_idle h, run_idle (s := s.withScripts c x) h]; rfl
    | busy cmd w k =>
      rw [run_busy h, run_busy (s := s.withScripts c x) h, ← ih, ← after_withScripts]; rfl

theorem run_setDraws (s : State) (ds x : List Draw) : (s.setDraws x).run ds = s.run ds := by
  rw [setDraws_eq_withScripts, run_withScripts]
  exact (run_withScripts s ds s.commands s.draws).symm

/-- A busy block with an answer coming takes it and goes on. -/
theorem settle_busy {s : State} {cmd : Word} {w : Wait} {k : Nat} {d : Draw} {ds : List Draw}
    (h : s.seq = .busy cmd w k) (hd : s.draws = d :: ds) :
    s.settle = (((s.record w.request d).after cmd w k d).setDraws ds).settle := by
  rw [State.settle, hd, run_busy h, State.settle, run_setDraws]; rfl

/-! ### What an answer can do -/

/-- An upper bound on the answers a position still needs. -/
def Wait.remaining : Wait → Nat
  | .lowByte use _ => match use with
    | .rd16 => 2 | .clear _ => 8 | .red _ _ => 6 | .green _ _ _ => 4 | .blue _ _ _ _ => 2
  | .highByte use _ _ => match use with
    | .rd16 => 1 | .clear _ => 7 | .red _ _ => 5 | .green _ _ _ => 3 | .blue _ _ _ _ => 1
  | .nativeWord use _ => match use with
    | .rd16 => 1 | .clear _ => 7 | .red _ _ => 6 | .green _ _ _ => 4 | .blue _ _ _ _ => 2
  | .acquire => 3
  | .claim => 2
  | .configWrite k _ _ => 5 - k.number
  | .releaseAddr => 2
  | _ => 1

theorem beginRead16_seq (s : State) (cmd : Word) (u : Use16) (o : Offset) (k : Nat) :
    (s.beginRead16 cmd u o k).seq = .busy cmd (if s.w16 then .nativeWord u o else .lowByte u o) k := by
  unfold State.beginRead16
  split <;> simp

@[simp] theorem beginRead16_log (s : State) (cmd : Word) (u : Use16) (o : Offset) (k : Nat) :
    (s.beginRead16 cmd u o k).log = s.log := by
  unfold State.beginRead16
  split <;> rfl

@[simp] theorem beginRead16_responses (s : State) (cmd : Word) (u : Use16) (o : Offset) (k : Nat) :
    (s.beginRead16 cmd u o k).responses = s.responses := by
  unfold State.beginRead16
  split <;> rfl

/-- After an answer the command has either ended, with one response more, or waits for its next transaction, nearer its
end. What follows an answer logs nothing. -/
theorem after_cases (s : State) (cmd : Word) (w : Wait) (k : Nat) (d : Draw) :
    (s.after cmd w k d).log = s.log ∧
      (((s.after cmd w k d).seq = .idle ∧ ∃ r, (s.after cmd w k d).responses = s.responses ++ [r]) ∨
        ((s.after cmd w k d).responses = s.responses ∧
          ∃ w', (s.after cmd w k d).seq = .busy cmd w' (k + 1) ∧ w'.remaining < w.remaining)) := by
  cases w <;> cases d <;>
    first
    | exact ⟨rfl, .inl ⟨rfl, _, rfl⟩⟩
    | exact ⟨rfl, .inr ⟨rfl, _, rfl, by decide⟩⟩
    | exact ⟨State.byteReadError_log .., .inl ⟨State.byteReadError_seq .., _, State.byteReadError_responses ..⟩⟩
    | skip
  case lowByte.ok u o b => exact ⟨rfl, .inr ⟨rfl, _, rfl, by cases u <;> simp [Wait.remaining]⟩⟩
  case highByte.ok u o lo b =>
    cases u with
    | rd16 => exact ⟨rfl, .inl ⟨rfl, _, rfl⟩⟩
    | blue => exact ⟨rfl, .inl ⟨rfl, _, rfl⟩⟩
    | _ =>
      refine ⟨beginRead16_log .., .inr ⟨beginRead16_responses .., _, beginRead16_seq .., ?_⟩⟩
      split <;> simp [Wait.remaining]
  case nativeWord.ok u o b =>
    cases u with
    | rd16 => exact ⟨rfl, .inl ⟨rfl, _, rfl⟩⟩
    | blue => exact ⟨rfl, .inl ⟨rfl, _, rfl⟩⟩
    | _ =>
      refine ⟨beginRead16_log .., .inr ⟨beginRead16_responses .., _, beginRead16_seq .., ?_⟩⟩
      split <;> simp [Wait.remaining]
  case configWrite.ok j a g b =>
    cases j with
    | gain => exact ⟨rfl, .inl ⟨rfl, _, rfl⟩⟩
    | _ => exact ⟨rfl, .inr ⟨rfl, _, rfl, by simp [Wait.remaining, CfgStep.number]⟩⟩
  case releaseAddr.err =>
    simp only [State.after, State.afterReleaseAddr, State.teardownBus]
    split
    · exact ⟨rfl, .inr ⟨rfl, _, rfl, by decide⟩⟩
    · exact ⟨rfl, .inl ⟨rfl, _, rfl⟩⟩
  case releaseAddr.ok =>
    simp only [State.after, State.afterReleaseAddr, State.teardownBus]
    split
    · exact ⟨rfl, .inr ⟨rfl, _, rfl, by decide⟩⟩
    · exact ⟨rfl, .inl ⟨rfl, _, rfl⟩⟩

/-- Answers that come in two parts do what they do in one. -/
theorem run_append (s : State) (ds es : List Draw) :
    s.run (ds ++ es) = (s.run ds).run ((s.run ds).draws ++ es) := by
  induction ds generalizing s with
  | nil => simp [run_setDraws]
  | cons d ds ih =>
    cases h : s.seq with
    | idle => rw [run_idle h, run_idle h, run_idle (s := s.setDraws (d :: ds)) h]; rfl
    | busy cmd w k => rw [List.cons_append, run_busy h, run_busy h, ih]

end Sys2Proof.Machine
end

