-- ==== Sys2Proof/Laws/Exec.lean ====
section
/-! SUPPORT. What every command does before its first answer, said once: it issues its first transaction, or it ends at once.
Nothing of that depends on the answers to come. -/

namespace Sys2Proof.Machine

/-- Where `Fetch()` waits first (42_measure.md R140). -/
def fetchWait (rep : Report) (s : State) : Wait :=
  if s.burst then .burst rep else if s.w16 then .nativeWord (.clear rep) cdataOff else .lowByte (.clear rep) cdataOff

/-- Where a command waits first, if it issues a transaction. -/
def firstWait (i : Instr) (s : State) : Option Wait :=
  match i with
  | .wrreg off data => if s.handleOpen then some (.writeByte off data) else none
  | .rd8 off => if s.handleOpen then some (.readByte off) else none
  | .rd16 off =>
    if pairInRange off ∧ s.handleOpen then some (if s.w16 then .nativeWord .rd16 off else .lowByte .rd16 off) else none
  | .rdblk off len => if blockInRange off len ∧ s.handleOpen then some (.readBlock off len) else none
  | .openBus => if s.state = .uninitialized then some .acquire else none
  | .config atime gain => if s.state = .busOpen then some (.configWrite .powerOn atime gain) else none
  | .configd =>
    if s.state = .busOpen then some (.configWrite .powerOn Config.defaultAtime Config.defaultGain) else none
  | .teardown => if s.held.addr then some .releaseAddr else if s.held.bus then some (.releaseBus 0#32) else none
  | .measure => if s.state = .configured then some (fetchWait .measure s) else none
  | .queryr => if s.state = .configured then some (fetchWait .queryRed s) else none
  | .queryg => if s.state = .configured then some (fetchWait .queryGreen s) else none
  | .queryb => if s.state = .configured then some (fetchWait .queryBlue s) else none
  | .ldraw _ _ => none
  | .norm => none
  | .setctrl _ => none
  | .getr _ => none

/-- How a command ends that issues no transaction. -/
def immediate (i : Instr) (s : State) : State :=
  match i with
  | .wrreg _ _ => s.raise .stateError 0#32
  | .rd8 _ => s.raise .stateError 0#32
  | .rd16 off => if pairInRange off then s.raise .stateError 0#32 else s.illegal
  | .rdblk off len => if blockInRange off len then s.raise .stateError 0#32 else s.illegal
  | .openBus => s.raise .stateError 0#32
  | .config _ _ => s.raise .stateError 0#32
  | .configd => s.raise .stateError 0#32
  | .teardown => s.finishTeardown 0#32
  | .measure => s.raise .notConfiguredError 0#32
  | .queryr => s.raise .notConfiguredError 0#32
  | .queryg => s.raise .notConfiguredError 0#32
  | .queryb => s.raise .notConfiguredError 0#32
  | .ldraw ch v => (s.setRaw (s.raw.set ch v)).respond .ok 0#32
  | .norm => s.divide.respond .ok s.divide.normWord
  | .setctrl ctl => (s.setCtrl (ctl.setWidth 8)).respond .ok 0#32
  | .getr idx => match s.readIndex idx with
    | some v => s.respond .ok v
    | none => s.illegal

theorem beginRead16_eq (s : State) (cmd : Word) (u : Use16) (o : Offset) (k : Nat) :
    s.beginRead16 cmd u o k = s.issue cmd (if s.w16 then .nativeWord u o else .lowByte u o) k := by
  unfold State.beginRead16
  split <;> rfl

theorem beginFetch_eq (s : State) (cmd : Word) (rep : Report) :
    s.beginFetch cmd rep = s.issue cmd (fetchWait rep s) 1 := by
  unfold State.beginFetch fetchWait
  rw [beginRead16_eq]
  split <;> rfl

theorem measureAs_eq (s : State) (i : Instr) (rep : Report) :
    s.measureAs i rep = if s.state = .configured then (s.issue (encode i) (fetchWait rep s) 1).settle
      else s.raise .notConfiguredError 0#32 := by
  rw [State.measureAs, beginFetch_eq]

/-- Every command answers a next state: it settles from its first transaction, or ends at once. -/
theorem exec_eq (i : Instr) (s : State) :
    exec i s = .next (match firstWait i s with
      | some w => (s.issue (encode i) w 1).settle
      | none => immediate i s) := by
  cases i with
  | wrreg off data => simp only [exec, execWrreg, firstWait, immediate]; split <;> rfl
  | rd8 off => simp only [exec, execRd8, firstWait, immediate]; split <;> rfl
  | rd16 off =>
    simp only [exec, execRd16, firstWait, immediate, beginRead16_eq]
    by_cases hp : pairInRange off
    · by_cases h : s.handleOpen = true
      · rw [if_neg (not_not.mpr hp), if_pos h, if_pos (show pairInRange off ∧ s.handleOpen = true from And.intro hp h)]
      · rw [if_neg (not_not.mpr hp), if_neg h, if_neg (fun c => h c.2)]
        exact congrArg _ (if_pos hp).symm
    · rw [if_pos hp, if_neg (fun c => hp c.1)]
      exact congrArg _ (if_neg hp).symm
  | rdblk off len =>
    simp only [exec, execRdblk, firstWait, immediate]
    by_cases hp : blockInRange off len
    · by_cases h : s.handleOpen = true
      · rw [if_neg (not_not.mpr hp), if_pos h, if_pos (show blockInRange off len ∧ s.handleOpen = true from And.intro hp h)]
      · rw [if_neg (not_not.mpr hp), if_neg h, if_neg (fun c => h c.2)]
        exact congrArg _ (if_pos hp).symm
    · rw [if_pos hp, if_neg (fun c => hp c.1)]
      exact congrArg _ (if_neg hp).symm
  | openBus => simp only [exec, execOpen, firstWait, immediate]; split <;> rfl
  | config a g =>
    simp only [exec, execConfig, firstWait, immediate, State.beginConfig]
    split
    · rfl
    · rw [settle_idle rfl]
  | configd =>
    simp only [exec, execConfigd, firstWait, immediate, State.beginConfig]
    split
    · rfl
    · rw [settle_idle rfl]
  | teardown =>
    simp only [exec, execTeardown, firstWait, immediate, State.beginTeardown, State.teardownBus]
    split
    · rfl
    · split
      · rfl
      · rw [settle_idle rfl]
  | measure => simp only [exec, execMeasure, firstWait, immediate, measureAs_eq]; split <;> rfl
  | queryr => simp only [exec, execQueryr, firstWait, immediate, measureAs_eq]; split <;> rfl
  | queryg => simp only [exec, execQueryg, firstWait, immediate, measureAs_eq]; split <;> rfl
  | queryb => simp only [exec, execQueryb, firstWait, immediate, measureAs_eq]; split <;> rfl
  | ldraw ch v => rfl
  | norm => rfl
  | setctrl c => rfl
  | getr idx => rfl

/-- The first transaction does not depend on what host and transport are going to do. -/
theorem firstWait_withScripts (i : Instr) (s : State) (c : List Word) (x : List Draw) :
    firstWait i (s.withScripts c x) = firstWait i s := by
  cases i <;> rfl

/-- A command that ends at once ends with one response, logs nothing and takes no answer. -/
theorem immediate_ends (i : Instr) (s : State) :
    (immediate i s).seq = .idle ∧ (immediate i s).log = s.log ∧ (immediate i s).draws = s.draws ∧
      (immediate i s).commands = s.commands ∧ ∃ r, (immediate i s).responses = s.responses ++ [r] := by
  have done : ∀ (t : State) (st : Status) (v : Word), t.log = s.log → t.draws = s.draws → t.commands = s.commands →
      t.responses = s.responses → (t.respond st v).seq = .idle ∧ (t.respond st v).log = s.log ∧
        (t.respond st v).draws = s.draws ∧ (t.respond st v).commands = s.commands ∧
        ∃ r, (t.respond st v).responses = s.responses ++ [r] :=
    fun t st v h1 h2 h3 h4 => ⟨rfl, h1, h2, h3, ⟨st, v⟩, by rw [State.respond_responses, h4]⟩
  cases i with
  | rd16 off => rw [immediate]; split <;> exact done s _ _ rfl rfl rfl rfl
  | rdblk off len => rw [immediate]; split <;> exact done s _ _ rfl rfl rfl rfl
  | getr idx => rw [immediate]; split <;> exact done s _ _ rfl rfl rfl rfl
  | teardown => exact done (s.setState .uninitialized) _ _ rfl rfl rfl rfl
  | ldraw ch v => exact done (s.setRaw (s.raw.set ch v)) _ _ rfl rfl rfl rfl
  | norm => exact done s.divide _ _ rfl rfl rfl rfl
  | setctrl c => exact done (s.setCtrl (c.setWidth 8)) _ _ rfl rfl rfl rfl
  | _ => exact done s _ _ rfl rfl rfl rfl

end Sys2Proof.Machine
end

