-- ==== Sys2Proof/Laws/PerInstr.lean ====
section
/-! SUPPORT. Statements made for each command of the opcode map, one lemma a constructor. -/

namespace Sys2Proof.Laws.OpcodeField

/-- The OP byte of a command's word is the one the opcode map gives the command (30_encoding.md R83). -/
def Statement (i : Instr) : Prop := opField (encode i) = i.opcode

/-- OP bit by bit. -/
theorem statement_of_bits {i : Instr} (h : ∀ k < 8, (encode i).getLsbD (24 + k) = i.opcode.getLsbD k) : Statement i :=
  BitVec.eq_of_getLsbD_eq fun k hk => by rw [opField, BitVec.getLsbD_extractLsb', h k hk]; simp [hk]

theorem wrreg (off : Offset) (data : Byte) : Statement (.wrreg off data) := statement_of_bits fun k hk => by
  simp only [encode, Instr.opcode, BitVec.getLsbD_append]
  interval_cases k <;> simp

theorem rd8 (off : Offset) : Statement (.rd8 off) := statement_of_bits fun k hk => by
  simp only [encode, Instr.opcode, BitVec.getLsbD_append]
  interval_cases k <;> simp

theorem rd16 (off : Offset) : Statement (.rd16 off) := statement_of_bits fun k hk => by
  simp only [encode, Instr.opcode, BitVec.getLsbD_append]
  interval_cases k <;> simp

theorem rdblk (off : Offset) (len : Byte) : Statement (.rdblk off len) := statement_of_bits fun k hk => by
  simp only [encode, Instr.opcode, BitVec.getLsbD_append]
  interval_cases k <;> simp

theorem openBus : Statement .openBus := by unfold Statement; decide

theorem config (atime gain : Byte) : Statement (.config atime gain) := statement_of_bits fun k hk => by
  simp only [encode, Instr.opcode, BitVec.getLsbD_append]
  interval_cases k <;> simp

theorem configd : Statement .configd := by unfold Statement; decide

theorem teardown : Statement .teardown := by unfold Statement; decide

theorem measure : Statement .measure := by unfold Statement; decide

theorem queryr : Statement .queryr := by unfold Statement; decide

theorem queryg : Statement .queryg := by unfold Statement; decide

theorem queryb : Statement .queryb := by unfold Statement; decide

theorem ldraw (ch : Channel) (value : Half) : Statement (.ldraw ch value) := statement_of_bits fun k hk => by
  simp only [encode, Instr.opcode, BitVec.getLsbD_append]
  interval_cases k <;> simp

theorem norm : Statement .norm := by unfold Statement; decide

theorem setctrl (ctl : BitVec 3) : Statement (.setctrl ctl) := statement_of_bits fun k hk => by
  simp only [encode, Instr.opcode, BitVec.getLsbD_append]
  interval_cases k <;> simp

theorem getr (idx : Byte) : Statement (.getr idx) := statement_of_bits fun k hk => by
  simp only [encode, Instr.opcode, BitVec.getLsbD_append]
  interval_cases k <;> simp

end Sys2Proof.Laws.OpcodeField
end

