-- ==== Sys2Proof/Laws/Registers.lean ====
section
/-! SUPPORT. The packed words and the index map (10_state.md R32-R34). -/

namespace Sys2Proof.Machine

/-- The NORM word holds red lowest and blue highest (R34). -/
theorem normWord_eq_append (s : State) : s.normWord = 0#8 ++ s.n.blue ++ s.n.green ++ s.n.red := by
  refine BitVec.eq_of_getLsbD_eq fun i h => ?_
  simp only [State.normWord, BitVec.getLsbD_or, BitVec.getLsbD_shiftLeft, BitVec.getLsbD_setWidth,
    BitVec.getLsbD_append]
  interval_cases i <;> simp

/-- Exactly the indices of R85 name a register. -/
theorem readIndex_isSome_iff (s : State) (idx : Byte) : (s.readIndex idx).isSome = true ↔ indexDefined idx := by
  have hlt := idx.isLt
  unfold State.readIndex indexDefined
  generalize idx.toNat = n at hlt ⊢
  by_cases h : n ≤ 9
  · interval_cases n <;> simp
  · split <;> first | omega | skip
    by_cases h1 : 0x10 ≤ n
    · by_cases h2 : n ≤ 0x2F
      · have h3 : n - 16 < 32 := by omega
        simp [h1, h2, h3]
      · have h3 : ¬ n - 16 < 32 := by omega
        simp [h1, h2, h3, h]
    · simp [h1, h]

/-- A reserved index names no register. -/
theorem readIndex_eq_none {s : State} {idx : Byte} (h : ¬ indexDefined idx) : s.readIndex idx = none := by
  rw [← Option.not_isSome_iff_eq_none, readIndex_isSome_iff]
  exact h

/-- The index of a BLKBUF entry. -/
theorem readIndex_blkbuf (s : State) (i : Fin 32) :
    s.readIndex (BitVec.ofNat 8 (0x10 + i.val)) = some (s.blkbuf[i].setWidth 32) := by
  obtain ⟨i, hi⟩ := i
  interval_cases i <;> rfl

end Sys2Proof.Machine
end

