-- ==== Sys2Proof/Laws/Transactions.lean ====
section
/-! SUPPORT. The transactions a command issues are legal ones, logging keeps the log legal, and what a run never writes. -/

namespace Sys2Proof.Machine

/-- A position of a command issues a legal request: framed, in range, for the one bus address (20_memory.md R54, R55, R64). -/
theorem request_legal {w : Wait} {i : Instr} (h : w.belongsTo i = true) : w.request.legal = true := by
  cases w with
  | writeByte o d => exact (commandByte_framed o).1
  | readByte o => exact (commandByte_framed o).1
  | lowByte u o => exact (commandByte_framed o).1
  | highByte u o l => exact (commandByte_framed _).1
  | nativeWord u o =>
    have hp : pairInRange o := by
      cases u <;> simp [Wait.belongsTo, Use16.belongsTo] at h
      · obtain ⟨rfl, h⟩ := h
        exact of_decide_eq_true h
      all_goals
        obtain ⟨-, rfl⟩ := h
        decide
    have hr : offsetOf (commandByte o) + 2 ≤ Config.regSpace := by
      rw [(commandByte_framed o).2]
      exact hp
    simp only [Wait.request, Request.legal, (commandByte_framed o).1, Bool.true_and, decide_eq_true_eq]
    exact hr
  | readBlock o l =>
    simp only [Wait.belongsTo, Bool.and_eq_true, beq_iff_eq] at h
    obtain ⟨rfl, h⟩ := h
    have hb : blockInRange o l := of_decide_eq_true h
    simp only [Wait.request, Request.legal, (commandByte_framed o).1, (commandByte_framed o).2, Bool.true_and,
      decide_eq_true_eq]
    exact hb
  | burst r => rw [Wait.request]; decide
  | configWrite k a g => exact (commandByte_framed _).1
  | _ => rfl

/-- A legal request with the answer a draw gives it is a legal log entry (20_memory.md R57). -/
theorem entry_legal {r : Request} (h : r.legal = true) (d : Draw) : Transaction.legal ⟨r, d.answer r⟩ = true := by
  cases d with
  | err => simp [Transaction.legal, h]
  | ok b =>
    have hn : r.answerBytes ≤ 32 := by
      cases r with
      | kr c n =>
        simp only [Request.legal, Bool.and_eq_true, decide_eq_true_eq] at h
        exact le_trans (Nat.le_add_left ..) h.2.2
      | _ => simp [Request.answerBytes]
    simp [Transaction.legal, h, answer_length b r hn]

/-- Logging a transaction of the command in progress keeps the log legal. -/
theorem record_logLegal {s : State} {w : Wait} {i : Instr} (hl : s.logLegal) (h : w.belongsTo i = true) (d : Draw) :
    (s.record w.request d).logLegal := by
  intro t ht
  simp only [State.record_log, List.mem_append, List.mem_singleton] at ht
  rcases ht with ht | rfl
  · exact hl t ht
  · exact entry_legal (request_legal h) d

/-- No answer changes CTRL. -/
theorem after_ctrl (s : State) (cmd : Word) (w : Wait) (k : Nat) (d : Draw) : (s.after cmd w k d).ctrl = s.ctrl := by
  cases w <;> cases d <;> first | rfl | exact State.byteReadError_ctrl .. | skip
  case highByte.ok u o lo b =>
    cases u <;> first | rfl | (simp only [State.after, State.afterHighByte, State.deliver16, beginRead16_eq]; rfl)
  case nativeWord.ok u o b =>
    cases u <;> first | rfl | (simp only [State.after, State.afterNativeWord, State.deliver16, beginRead16_eq]; rfl)
  case configWrite.ok j a g b => cases j <;> rfl
  all_goals
    simp only [State.after, State.afterReleaseAddr, State.teardownBus]
    split <;> rfl

/-- No run of a command that issues transactions changes CTRL. -/
theorem run_ctrl (s : State) (ds : List Draw) : (s.run ds).ctrl = s.ctrl := by
  induction ds generalizing s with
  | nil => rfl
  | cons d ds ih =>
    cases h : s.seq with
    | idle => rw [run_idle h]; rfl
    | busy cmd w k => rw [run_busy h, ih, after_ctrl]; rfl

/-- A division leaves N and OVF what they are of Q, and Q in its range (43_divider.md R160, R161). -/
theorem divide_dividerLegal (s : State) : s.divide.dividerLegal :=
  ⟨rfl, rfl, quotient_le _ _, quotient_le _ _, quotient_le _ _⟩

end Sys2Proof.Machine
end

