-- ==== Sys2Proof/Tests/Slice0.lean ====
section
/-! SUPPORT. Tests of the model against the vectors of 95_test_vectors.md and the examples of the rules (named at each), and for
every statement with hypotheses a witness that meets them. Expected values are the spec's. -/

namespace Sys2Proof.Tests

open Sys2Proof Sys2Proof.Machine

/-! ### Helpers -/

/-- A successful answer with the bytes given (zeros after them). -/
def yes (l : List Byte) : Draw := .ok (Vector.ofFn fun i => l.getD i 0#8)

/-- The reset state with another STATE/HELD/CTRL, as the vectors write a start, and the answers to come. -/
def start (st : DriverState) (held : Held) (ctrl : Byte) (ds : List Draw) : State :=
  { State.reset with state := st, held := held, ctrl := ctrl, draws := ds }

/-- The host presents one word. -/
def present (s : State) (w : Word) : State := { s with commands := [w] }

/-- One step on a presented word. -/
def stepOn (s : State) (w : Word) : Host.Outcome State Fault Refusal := step (present s w)

/-- What a test looks at after a step: response, log and STATE/HELD. -/
def gives (o : Host.Outcome State Fault Refusal) (r : Response) (log : List Transaction) (st : DriverState)
    (held : Held) : Bool :=
  match o with
  | .next t => t.responses == [r] && t.log == log && t.state == st && t.held == held && t.seq == .idle
  | .fault _ => false
  | .refused _ => false

/-- A property of the next state. -/
def after (o : Host.Outcome State Fault Refusal) (p : State → Bool) : Bool :=
  match o with
  | .next t => p t
  | .fault _ => false
  | .refused _ => false

/-- The example bytes E of 95_test_vectors.md. -/
def exampleBytes : List Byte := [0x64#8, 0x00#8, 0x32#8, 0x00#8, 0x64#8, 0x00#8, 0x19#8, 0x00#8]

/-! ### WellFormed (30_encoding.md R85): an ill-formed term for each check, and the last well-formed ones -/

theorem test_rd16_at_last_register_ill_formed : (Instr.rd16 0x1F#5).wellFormed = false := by decide
theorem test_rdblk_empty_ill_formed : (Instr.rdblk 0x00#5 0#8).wellFormed = false := by decide
theorem test_rdblk_past_the_end_ill_formed : (Instr.rdblk 0x19#5 8#8).wellFormed = false := by decide
theorem test_getr_gap_ill_formed : (Instr.getr 0x0A#8).wellFormed = false := by decide
theorem test_getr_above_ill_formed : (Instr.getr 0x30#8).wellFormed = false := by decide
theorem test_boundary_operands_well_formed :
    (Instr.rd16 0x1E#5).wellFormed = true ∧ (Instr.rdblk 0x00#5 32#8).wellFormed = true ∧
      (Instr.rdblk 0x1F#5 1#8).wellFormed = true ∧ (Instr.getr 0x09#8).wellFormed = true ∧
      (Instr.getr 0x10#8).wellFormed = true ∧ (Instr.getr 0x2F#8).wellFormed = true := by decide

/-! ### Decode: the words EN-1 to EN-20, DC-8, DC-11, DC-20, one or more for each constructor -/

theorem test_decode_wrreg : decode 0x01000001#32 = .ok (.wrreg 0x00#5 0x01#8) := by decide
theorem test_decode_wrreg_top : decode 0x011F00FF#32 = .ok (.wrreg 0x1F#5 0xFF#8) := by decide
theorem test_decode_rd8 : decode 0x02120000#32 = .ok (.rd8 0x12#5) := by decide
theorem test_decode_rd16 : decode 0x03140000#32 = .ok (.rd16 0x14#5) := by decide
theorem test_decode_rd16_last : decode 0x031E0000#32 = .ok (.rd16 0x1E#5) := by decide
theorem test_decode_rdblk : decode 0x04140008#32 = .ok (.rdblk 0x14#5 8#8) := by decide
theorem test_decode_rdblk_whole : decode 0x04000020#32 = .ok (.rdblk 0x00#5 32#8) := by decide
theorem test_decode_rdblk_last : decode 0x04180008#32 = .ok (.rdblk 0x18#5 8#8) := by decide
theorem test_decode_open : decode 0x10000000#32 = .ok (.openBus) := by decide
theorem test_decode_config : decode 0x1100F601#32 = .ok (.config 0xF6#8 0x01#8) := by decide
theorem test_decode_configd : decode 0x12000000#32 = .ok (.configd) := by decide
theorem test_decode_teardown : decode 0x13000000#32 = .ok (.teardown) := by decide
theorem test_decode_measure : decode 0x20000000#32 = .ok (.measure) := by decide
theorem test_decode_queryr : decode 0x21000000#32 = .ok (.queryr) := by decide
theorem test_decode_queryg : decode 0x22000000#32 = .ok (.queryg) := by decide
theorem test_decode_queryb : decode 0x23000000#32 = .ok (.queryb) := by decide
theorem test_decode_ldraw : decode 0x30011234#32 = .ok (.ldraw .red 0x1234#16) := by decide
theorem test_decode_ldraw_blue : decode 0x3003FFFF#32 = .ok (.ldraw .blue 0xFFFF#16) := by decide
theorem test_decode_ldraw_clear : decode 0x30000000#32 = .ok (.ldraw .clear 0#16) := by decide
theorem test_decode_ldraw_green : decode 0x30020006#32 = .ok (.ldraw .green 6#16) := by decide
theorem test_decode_norm : decode 0x31000000#32 = .ok (.norm) := by decide
theorem test_decode_setctrl : decode 0x40000007#32 = .ok (.setctrl 7#3) := by decide
theorem test_decode_getr : decode 0x41090000#32 = .ok (.getr 0x09#8) := by decide
theorem test_decode_getr_last : decode 0x412F0000#32 = .ok (.getr 0x2F#8) := by decide

/-- The encoder writes the same words. -/
theorem test_encode :
    encode (.wrreg 0x1F#5 0xFF#8) = 0x011F00FF#32 ∧
    encode (.rd8 0x12#5) = 0x02120000#32 ∧
    encode (.rd16 0x1E#5) = 0x031E0000#32 ∧
    encode (.rdblk 0x14#5 8#8) = 0x04140008#32 ∧
    encode (.config 0xF6#8 0x01#8) = 0x1100F601#32 ∧
    encode (.ldraw .red 0x1234#16) = 0x30011234#32 ∧
    encode (.ldraw .blue 0xFFFF#16) = 0x3003FFFF#32 ∧
    encode (.setctrl 7#3) = 0x40000007#32 ∧
    encode (.getr 0x2F#8) = 0x412F0000#32 := by decide

/-! ### Decode refuses by name: DC-1 to DC-19 -/

theorem test_decode_reserved_opcode :
    decode 0x00000000#32 = .error .reservedOpcode ∧ decode 0x05000000#32 = .error .reservedOpcode ∧
      decode 0xFF000000#32 = .error .reservedOpcode := by decide
theorem test_decode_must_be_zero :
    decode 0x01200001#32 = .error .mustBeZero ∧ decode 0x01000101#32 = .error .mustBeZero ∧
      decode 0x02000001#32 = .error .mustBeZero ∧ decode 0x10000001#32 = .error .mustBeZero ∧
      decode 0x11010000#32 = .error .mustBeZero ∧ decode 0x30040000#32 = .error .mustBeZero ∧
      decode 0x40000008#32 = .error .mustBeZero ∧ decode 0x41090001#32 = .error .mustBeZero := by decide
theorem test_decode_operand_range :
    decode 0x031F0000#32 = .error .operandRange ∧ decode 0x04000000#32 = .error .operandRange ∧
      decode 0x04190008#32 = .error .operandRange ∧ decode 0x04000021#32 = .error .operandRange ∧
      decode 0x410A0000#32 = .error .operandRange ∧ decode 0x41300000#32 = .error .operandRange := by decide

/-! ### Transactor: TR vectors and the examples of R105, R106 -/

/-- TR-1 -/
theorem test_wrreg_ok :
    gives (stepOn (start .busOpen .both 0x00#8 [yes []]) 0x01000003#32) ⟨.ok, 0#32⟩
      [⟨.bw 0x80#8 0x03#8, .ok []⟩] .busOpen .both = true := by decide
/-- TR-17: HARDFAIL does not cover BW. -/
theorem test_wrreg_err_under_hardfail :
    gives (stepOn (start .busOpen .both 0x01#8 [.err]) 0x010F0001#32) ⟨.busError, 1#32⟩
      [⟨.bw 0x8F#8 0x01#8, .err⟩] .busOpen .both = true := by decide
/-- TR-5 -/
theorem test_rd8_ok :
    gives (stepOn (start .configured .both 0x00#8 [yes [0xAB#8]]) 0x02140000#32) ⟨.ok, 0xAB#32⟩
      [⟨.br 0x94#8, .ok [0xAB#8]⟩] .configured .both = true := by decide
/-- TR-7 -/
theorem test_rd8_hardfail :
    gives (stepOn (start .configured .both 0x01#8 [.err]) 0x02140000#32) ⟨.busError, 1#32⟩
      [⟨.br 0x94#8, .err⟩] .failed .both = true := by decide
/-- TR-14 -/
theorem test_rd16_composed_odd :
    gives (stepOn (start .busOpen .both 0x00#8 [yes [0x01#8], yes [0x02#8]]) 0x03150000#32) ⟨.ok, 0x0201#32⟩
      [⟨.br 0x95#8, .ok [0x01#8]⟩, ⟨.br 0x96#8, .ok [0x02#8]⟩] .busOpen .both = true := by decide
/-- The native example of R106. -/
theorem test_rd16_native :
    gives (stepOn (start .configured .both 0x02#8 [yes [0x34#8, 0x12#8]]) 0x03140000#32) ⟨.ok, 0x1234#32⟩
      [⟨.wr 0x94#8, .ok [0x34#8, 0x12#8]⟩] .configured .both = true := by decide
/-- TR-15 -/
theorem test_rdblk_one_byte :
    after (stepOn (start .busOpen .both 0x00#8 [yes [0x77#8, 0x55#8]]) 0x041F0001#32) (fun t =>
      t.responses == [⟨.ok, 1#32⟩] && t.log == [⟨.kr 0x9F#8 1, .ok [0x77#8]⟩] && t.blkbuf[0] == 0x77#8 &&
        t.blkbuf[1] == 0x00#8) = true := by decide
/-- TR-16 -/
theorem test_rdblk_err :
    after (stepOn (start .busOpen .both 0x01#8 [.err]) 0x04140008#32) (fun t =>
      t.responses == [⟨.busError, 1#32⟩] && t.state == .busOpen && t.blkbuf == State.reset.blkbuf) = true := by decide

/-! ### Lifecycle: LC vectors -/

/-- LC-1 -/
theorem test_open_ok :
    gives (stepOn (start .uninitialized .none 0x00#8 [yes [], yes []]) 0x10000000#32) ⟨.ok, 0#32⟩
      [⟨.acq, .ok []⟩, ⟨.claim 0x29#7, .ok []⟩] .busOpen .both = true := by decide
/-- LC-4 -/
theorem test_open_rollback_fails_too :
    gives (stepOn (start .uninitialized .none 0x00#8 [yes [], .err, .err]) 0x10000000#32) ⟨.busOpenError, 0x102#32⟩
      [⟨.acq, .ok []⟩, ⟨.claim 0x29#7, .err⟩, ⟨.relb, .err⟩] .uninitialized .none = true := by decide
/-- LC-6 -/
theorem test_config_ok :
    gives (stepOn (start .busOpen .both 0x00#8 [yes [], yes [], yes [], yes []]) 0x1100F601#32) ⟨.ok, 0#32⟩
      [⟨.bw 0x80#8 0x01#8, .ok []⟩, ⟨.bw 0x80#8 0x03#8, .ok []⟩, ⟨.bw 0x81#8 0xF6#8, .ok []⟩,
        ⟨.bw 0x8F#8 0x01#8, .ok []⟩] .configured .both = true := by decide
/-- LC-9 -/
theorem test_config_fails_at_step_3 :
    gives (stepOn (start .busOpen .both 0x00#8 [yes [], yes [], .err, yes []]) 0x1100F601#32) ⟨.configStepError, 3#32⟩
      [⟨.bw 0x80#8 0x01#8, .ok []⟩, ⟨.bw 0x80#8 0x03#8, .ok []⟩, ⟨.bw 0x81#8 0xF6#8, .err⟩]
      .failed .both = true := by decide
/-- LC-14: the open parameters stand in the log as they are. -/
theorem test_configd_writes_the_parameters :
    ∃ t, stepOn (start .busOpen .both 0x00#8 [yes [], yes [], yes [], yes []]) 0x12000000#32 = .next t ∧
      t.state = .configured ∧ t.responses = [⟨.ok, 0#32⟩] ∧
      t.log = [⟨.bw 0x80#8 0x01#8, .ok []⟩, ⟨.bw 0x80#8 0x03#8, .ok []⟩,
        ⟨.bw 0x81#8 Config.defaultAtime, .ok []⟩, ⟨.bw 0x8F#8 Config.defaultGain, .ok []⟩] :=
  ⟨_, rfl, rfl, rfl, rfl⟩
/-- LC-12 -/
theorem test_configd_needs_bus_open :
    gives (stepOn (start .uninitialized .none 0x00#8 []) 0x12000000#32) ⟨.stateError, 0#32⟩ []
      .uninitialized .none = true := by decide
/-- LC-17 -/
theorem test_teardown_both_releases_fail :
    gives (stepOn (start .configured .both 0x00#8 [.err, .err]) 0x13000000#32) ⟨.ok, 3#32⟩
      [⟨.rela, .err⟩, ⟨.relb, .err⟩] .uninitialized .none = true := by decide
/-- LC-15 -/
theorem test_teardown_with_nothing_held :
    gives (stepOn (start .uninitialized .none 0x00#8 [yes []]) 0x13000000#32) ⟨.ok, 0#32⟩ []
      .uninitialized .none = true := by decide

/-! ### Measurement: MQ vectors -/

/-- MQ-12 -/
theorem test_measure_burst_saturates :
    after (stepOn (start .configured .both 0x04#8
      [yes [0x01#8, 0x00#8, 0x02#8, 0x00#8, 0x00#8, 0x00#8, 0xFF#8, 0xFF#8]]) 0x20000000#32) (fun t =>
      t.responses == [⟨.ok, 0x00FF00FF#32⟩] && t.raw == ⟨1#16, 2#16, 0#16, 65535#16⟩ &&
        t.q == ⟨510#24, 0#24, 16711425#24⟩ && t.n == ⟨255#8, 0#8, 255#8⟩ && t.ovf == 0b101#3) = true := by decide
/-- MQ-8 -/
theorem test_measure_composed_hardfail :
    after (stepOn { start .configured .both 0x01#8
      [yes [0x64#8], yes [0x00#8], yes [0x32#8], yes [0x00#8], .err] with raw := ⟨1#16, 1#16, 1#16, 1#16⟩ }
      0x20000000#32) (fun t =>
      t.responses == [⟨.busError, 5#32⟩] && t.raw == ⟨1#16, 1#16, 1#16, 1#16⟩ && t.state == .failed &&
        t.log.map Transaction.request == [.br 0x94#8, .br 0x95#8, .br 0x96#8, .br 0x97#8, .br 0x98#8]) = true := by
  decide
/-- MQ-11, and P1 step 3 (composed reads). -/
theorem test_queryr_composed :
    after (stepOn (start .configured .both 0x00#8 (exampleBytes.map fun b => yes [b])) 0x21000000#32) (fun t =>
      t.responses == [⟨.ok, 127#32⟩] && t.raw == ⟨100#16, 50#16, 100#16, 25#16⟩ && t.log.length == 8) = true := by
  decide
/-- MQ-2 -/
theorem test_queryr_not_configured :
    gives (stepOn (start .busOpen .both 0x00#8 [yes []]) 0x21000000#32) ⟨.notConfiguredError, 0#32⟩ []
      .busOpen .both = true := by decide
/-- MQ-11, by word reads as in MQ-5. -/
theorem test_queryg_native :
    gives (stepOn (start .configured .both 0x02#8
      [yes [0x64#8, 0x00#8], yes [0x32#8, 0x00#8], yes [0x64#8, 0x00#8], yes [0x19#8, 0x00#8]]) 0x22000000#32)
      ⟨.ok, 255#32⟩ [⟨.wr 0x94#8, .ok [0x64#8, 0x00#8]⟩, ⟨.wr 0x96#8, .ok [0x32#8, 0x00#8]⟩,
        ⟨.wr 0x98#8, .ok [0x64#8, 0x00#8]⟩, ⟨.wr 0x9A#8, .ok [0x19#8, 0x00#8]⟩] .configured .both = true := by decide
/-- MQ-11 -/
theorem test_queryb_burst :
    gives (stepOn (start .configured .both 0x04#8 [yes exampleBytes]) 0x23000000#32) ⟨.ok, 63#32⟩
      [⟨.kr 0x94#8 8, .ok exampleBytes⟩] .configured .both = true := by decide
/-- MQ-3 -/
theorem test_queryb_in_failed :
    gives (stepOn (start .failed .both 0x00#8 []) 0x23000000#32) ⟨.notConfiguredError, 0#32⟩ []
      .failed .both = true := by decide

/-! ### Divider and control: DV, CT and P3 -/

/-- DV-14 -/
theorem test_ldraw_red :
    after (stepOn State.reset 0x30011234#32) (fun t =>
      t.responses == [⟨.ok, 0#32⟩] && t.raw == ⟨0#16, 0x1234#16, 0#16, 0#16⟩ && t.n == State.reset.n) = true := by
  decide
/-- DV-7 -/
theorem test_norm_floor_next_to_overflow :
    after (stepOn { State.reset with raw := ⟨300#16, 301#16, 299#16, 600#16⟩ } 0x31000000#32) (fun t =>
      t.responses == [⟨.ok, 0x00FFFEFF#32⟩] && t.q == ⟨255#24, 254#24, 510#24⟩ && t.ovf == 0b100#3) = true := by decide
/-- DV-12 -/
theorem test_norm_green_overflow :
    after (stepOn { State.reset with raw := ⟨2#16, 1#16, 3#16, 0#16⟩ } 0x31000000#32) (fun t =>
      t.responses == [⟨.ok, 0x0000FF7F#32⟩] && t.q == ⟨127#24, 382#24, 0#24⟩ && t.ovf == 0b010#3) = true := by decide
/-- The example of R180. -/
theorem test_setctrl :
    after (stepOn State.reset 0x40000005#32) (fun t =>
      t.responses == [⟨.ok, 0#32⟩] && t.ctrl == 0x05#8 && t.hardFail && !t.w16 && t.burst) = true := by decide
/-- P3 step 9 -/
theorem test_getr_stat :
    after (stepOn { start .failed .both 0x01#8 [] with ovf := 0b101#3 } 0x41000000#32) (fun t =>
      t.responses == [⟨.ok, 0x0000051F#32⟩]) = true := by decide
/-- P5 step 5: BLKBUF+1 is index 0x11. -/
theorem test_getr_blkbuf :
    after (stepOn { State.reset with blkbuf := State.reset.blkbuf.set 1 0xF6#8 } 0x41110000#32) (fun t =>
      t.responses == [⟨.ok, 0x000000F6#32⟩]) = true := by decide

/-! ### Error precedence: EP vectors -/

theorem test_illegal_before_state_error :
    gives (stepOn (start .failed .both 0x00#8 []) 0x031F0000#32) ⟨.illegalCommand, 0#32⟩ [] .failed .both = true := by
  decide
theorem test_malformed_measure_is_illegal :
    gives (stepOn State.reset 0x20000001#32) ⟨.illegalCommand, 0#32⟩ [] .uninitialized .none = true := by decide

/-! ### The host's two placements -/

theorem test_decodeTableWord : decodeTableWord 32 0x30011234 = some (.ldraw .red 0x1234#16) := by decide
theorem test_withFetchWord_runs_the_word :
    step (State.reset.withFetchWord 32 0x40000007) = exec (.setctrl 7#3) State.reset := rfl

/-! ### Assembly text (30_encoding.md R90, R91): EN-1, EN-18 to EN-20, P4 -/

theorem test_assemble_wrreg : assemble "WRREG ENABLE, 0x01" = .ok [0x01000001#32] := by decide
theorem test_assemble_control_list : assemble "SETCTRL HARDFAIL|W16|BURST" = .ok [0x40000007#32] := by decide
theorem test_assemble_program :
    assemble "LDRAW R, 500 ; red\n\n NORM\nGETR BLKBUF+31" = .ok [0x300101F4#32, 0x31000000#32, 0x412F0000#32] := by
  decide
theorem test_assemble_pseudo : assemble "SETATIME 0xD5\nRDALL" = .ok [0x010100D5#32, 0x04140008#32] := by decide
theorem test_assemble_refuses_what_does_not_fit : assemble "WRREG 0x20, 0" = .error .doesNotFit := by decide

/-! ### Witnesses: for every statement with hypotheses, values that meet them, at the ends of their ranges -/

/-- A block in the middle of a composed MEASURE, waiting for its eighth answer. -/
def waiting : State :=
  { start .configured .both 0x00#8 [] with
    seq := .busy 0x20000000#32 (.highByte (.blue .measure 100#16 50#16 100#16) bdataOff 0x19#8) 8 }

theorem witness_DecodeOfEncodeIsTheCommand :
    (Instr.wrreg 0x1F#5 0xFF#8).wellFormed = true ∧ (Instr.rdblk 0x00#5 32#8).wellFormed = true ∧
      (Instr.getr 0x2F#8).wellFormed = true := by decide
theorem witness_EncodeOfDecodeIsTheWord : decode 0x412F0000#32 = .ok (.getr 0x2F#8) := by decide
/-- One word for each way of being illegal, and a legal one. -/
theorem witness_IllegalWordsAndNoOthersAreIllegalCommand :
    (present State.reset 0x01200001#32).seq = .idle ∧
      (present State.reset 0x01200001#32).commands = 0x01200001#32 :: [] ∧
      (∀ r ∈ rows, 0x01200001#32 &&& r.mask ≠ r.value) ∧
      ((0x031F0000#32).extractLsb' 24 8 = 0x03#8 ∧ (0x031F0000#32).extractLsb' 16 5 = 0x1F#5) ∧
      ((0x04190008#32).extractLsb' 24 8 = 0x04#8 ∧
        0x20 < ((0x04190008#32).extractLsb' 16 5).toNat + ((0x04190008#32).extractLsb' 0 8).toNat) ∧
      ((0x410A0000#32).extractLsb' 24 8 = 0x41#8 ∧ ((0x410A0000#32).extractLsb' 16 8).toNat = 0x0A) ∧
      ¬ (∀ r ∈ rows, 0x04180008#32 &&& r.mask ≠ r.value) := by decide
theorem witness_ReservedOpcodesAreIllegalCommand :
    (present State.reset 0x42000000#32).seq = .idle ∧ (present State.reset 0x42000000#32).commands = 0x42000000#32 :: [] ∧
      ((0x42000000#32).extractLsb' 24 8).toNat = 0x42 := by decide
theorem witness_IllFormedOperandsAreIllegalCommand :
    State.reset.seq = .idle ∧ (Instr.rd16 0x1F#5).wellFormed = false ∧ (Instr.rdblk 0x1F#5 2#8).wellFormed = false ∧
      (Instr.getr 0x0F#8).wellFormed = false := by decide
theorem witness_StepRunsTheDecodedCommand :
    (present State.reset 0x10000000#32).seq = .idle ∧ (present State.reset 0x10000000#32).commands = 0x10000000#32 :: [] ∧
      decode 0x10000000#32 = .ok .openBus := by decide
theorem witness_IdleBlockWaitsForACommand : State.reset.seq = .idle ∧ State.reset.commands = [] := by decide
theorem witness_BusyBlockHoldsTheCommandOnThePort :
    ∃ cmd p k, (present waiting 0x13000000#32).seq = .busy cmd p k := ⟨_, _, _, rfl⟩
theorem witness_SilentTransportLeavesTheBlockBusyForEver :
    (∃ cmd p k, waiting.seq = .busy cmd p k) ∧ waiting.draws = [] := ⟨⟨_, _, _, rfl⟩, rfl⟩
theorem witness_LateAnswersChangeNothing :
    ∃ t, (present State.reset 0x10000000#32).seq = .idle ∧
      (present State.reset 0x10000000#32).commands = 0x10000000#32 :: [] ∧
      step { present State.reset 0x10000000#32 with draws := [yes []] } = .next t ∧
      ∃ cmd p k, t.seq = .busy cmd p k := ⟨_, rfl, rfl, rfl, _, _, _, rfl⟩
theorem witness_EveryCommandEndsInOneResponse :
    (present (start .configured .both 0x00#8 (List.replicate 8 .err)) 0x20000000#32).seq = .idle ∧
      (present (start .configured .both 0x00#8 (List.replicate 8 .err)) 0x20000000#32).commands = 0x20000000#32 :: [] ∧
      8 ≤ (start .configured .both 0x00#8 (List.replicate 8 .err)).draws.length := by decide
theorem witness_LogRecordsEachAnswerInOrder :
    ∃ t, step { waiting with draws := [yes [0x00#8]] } = .next t ∧
      (∃ cmd p k, ({ waiting with draws := [yes [0x00#8]] } : State).seq = .busy cmd p k ∧
        p.request = .br 0x9B#8) ∧
      ({ waiting with draws := [yes [0x00#8]] } : State).draws ≠ [] ∧ t.log.length = 1 :=
  ⟨_, rfl, ⟨_, _, _, rfl, by decide⟩, by decide, rfl⟩
/-- A legal idle state and a legal busy one, each with a step. -/
theorem witness_StepKeepsTheInvariant :
    (∃ t, (present State.reset 0x10000000#32).Inv ∧ step (present State.reset 0x10000000#32) = .next t) ∧
      (∃ t, waiting.Inv ∧ step { waiting with draws := [.err] } = .next t) :=
  ⟨⟨_, by decide, rfl⟩, ⟨_, by decide, rfl⟩⟩
theorem witness_WrregWritesOneByte :
    (start .busOpen .both 0x00#8 [.err]).seq = .idle ∧ (start .busOpen .both 0x00#8 [.err]).state = .busOpen ∧
      (start .busOpen .both 0x00#8 [.err]).draws = .err :: [] := by decide
theorem witness_Rd8ReadsOneByteUnderTheHardFailPolicy :
    (start .configured .both 0x01#8 [yes [0xFF#8]]).seq = .idle ∧
      (start .configured .both 0x01#8 [yes [0xFF#8]]).state = .configured ∧
      (∃ b, (start .configured .both 0x01#8 [yes [0xFF#8]]).draws = .ok b :: []) ∧
      (start .configured .both 0x01#8 [.err]).draws = .err :: [] := ⟨rfl, rfl, ⟨_, rfl⟩, rfl⟩
/-- The first and the last offset, and a state for each clause. -/
theorem witness_Rd16ComposesTwoByteReads :
    (start .busOpen .both 0x01#8 []).seq = .idle ∧ (start .busOpen .both 0x01#8 []).state = .busOpen ∧
      (0x00#5).toNat ≤ 0x1E ∧ (0x1E#5).toNat ≤ 0x1E ∧ (start .busOpen .both 0x01#8 []).ctrl.getLsbD 1 = false ∧
      (∃ a b, (start .busOpen .both 0x01#8 [yes [], yes []]).draws = .ok a :: .ok b :: []) ∧
      (∃ a, (start .busOpen .both 0x01#8 [yes [], .err]).draws = .ok a :: .err :: []) ∧
      (start .busOpen .both 0x01#8 [.err]).draws = .err :: [] :=
  ⟨rfl, rfl, by decide, by decide, rfl, ⟨_, _, rfl⟩, ⟨_, rfl⟩, rfl⟩
theorem witness_Rd16ReadsANativeWord :
    (start .configured .both 0x02#8 []).seq = .idle ∧ (start .configured .both 0x02#8 []).state = .configured ∧
      (0x1E#5).toNat ≤ 0x1E ∧ (start .configured .both 0x02#8 []).ctrl.getLsbD 1 = true ∧
      (∃ b, (start .configured .both 0x02#8 [yes []]).draws = .ok b :: []) ∧
      (start .configured .both 0x02#8 [.err]).draws = .err :: [] :=
  ⟨rfl, rfl, by decide, rfl, ⟨_, rfl⟩, rfl⟩
/-- The whole space, and the last register alone. -/
theorem witness_RdblkFillsTheBlockBuffer :
    (start .busOpen .both 0x00#8 []).seq = .idle ∧ (start .busOpen .both 0x00#8 []).state = .busOpen ∧
      (1 ≤ (32#8).toNat ∧ (0x00#5).toNat + (32#8).toNat ≤ 0x20) ∧
      (1 ≤ (1#8).toNat ∧ (0x1F#5).toNat + (1#8).toNat ≤ 0x20) ∧
      (∃ b, (start .busOpen .both 0x00#8 [yes []]).draws = .ok b :: []) ∧
      (start .busOpen .both 0x00#8 [.err]).draws = .err :: [] :=
  ⟨rfl, rfl, by decide, by decide, ⟨_, rfl⟩, rfl⟩
/-- A command and a state for each of the three answers of the table. -/
theorem witness_AdmissionFollowsTheTable :
    (∃ t, State.reset.seq = .idle ∧ (Instr.rd8 0x00#5).wellFormed = true ∧ exec (.rd8 0x00#5) State.reset = .next t ∧
      admission (.rd8 0x00#5) State.reset.state = .refusedStateError) ∧
      (∃ t, Instr.measure.wellFormed = true ∧ exec .measure State.reset = .next t ∧
        admission .measure State.reset.state = .refusedNotConfigured) ∧
      (∃ t, Instr.openBus.wellFormed = true ∧ exec .openBus State.reset = .next t ∧
        admission .openBus State.reset.state = .admitted) :=
  ⟨⟨_, rfl, rfl, rfl, rfl⟩, ⟨_, rfl, rfl, rfl⟩, ⟨_, rfl, rfl, rfl⟩⟩
theorem witness_FailedIsLeftOnlyByTeardown :
    (start .failed .both 0x00#8 []).seq = .idle ∧ (start .failed .both 0x00#8 []).state = .failed ∧
      (∃ t, admission .openBus .failed = .refusedStateError ∧ Instr.openBus ≠ .teardown ∧
        exec .openBus (start .failed .both 0x00#8 []) = .next t) ∧
      (∃ t, fetches .queryb = true ∧ exec .queryb (start .failed .both 0x00#8 []) = .next t) ∧
      (∃ t, admission .norm .failed = .admitted ∧ Instr.norm.wellFormed = true ∧
        exec .norm (start .failed .both 0x00#8 []) = .next t) :=
  ⟨rfl, rfl, ⟨_, rfl, by decide, rfl⟩, ⟨_, rfl, rfl⟩, ⟨_, rfl, rfl, rfl⟩⟩
theorem witness_OpenAcquiresClaimsOrRollsBack :
    State.reset.seq = .idle ∧ State.reset.state = .uninitialized ∧ State.reset.held = ⟨false, false⟩ ∧
      (∃ a b, (start .uninitialized .none 0x00#8 [yes [], yes []]).draws = .ok a :: .ok b :: []) ∧
      (start .uninitialized .none 0x00#8 [.err]).draws = .err :: [] ∧
      (∃ a c, (start .uninitialized .none 0x00#8 [yes [], .err, yes []]).draws = .ok a :: .err :: .ok c :: []) ∧
      (∃ a, (start .uninitialized .none 0x00#8 [yes [], .err, .err]).draws = .ok a :: .err :: .err :: []) :=
  ⟨rfl, rfl, rfl, ⟨_, _, rfl⟩, rfl, ⟨_, _, rfl⟩, ⟨_, rfl⟩⟩
theorem witness_ConfigWritesFourRegistersInOrder :
    ∃ a b c d, (start .busOpen .both 0x00#8 [yes [], yes [], yes [], yes []]).seq = .idle ∧
      (start .busOpen .both 0x00#8 [yes [], yes [], yes [], yes []]).state = .busOpen ∧
      (start .busOpen .both 0x00#8 [yes [], yes [], yes [], yes []]).draws = .ok a :: .ok b :: .ok c :: .ok d :: [] :=
  ⟨_, _, _, _, rfl, rfl, rfl⟩
/-- A failure at the first and at the fourth step. -/
theorem witness_ConfigFailureNamesItsStep :
    (start .busOpen .both 0x00#8 []).seq = .idle ∧ (start .busOpen .both 0x00#8 []).state = .busOpen ∧
      ((start .busOpen .both 0x00#8 [.err]).draws = [] ++ .err :: [] ∧ ([] : List Draw).length < 4) ∧
      ((start .busOpen .both 0x00#8 [yes [], yes [], yes [], .err]).draws = [yes [], yes [], yes []] ++ .err :: [] ∧
        [yes [], yes [], yes []].length < 4 ∧ ∀ d ∈ [yes [], yes [], yes []], d.isOk = true) := by decide
/-- Nothing held, and both held. -/
theorem witness_TeardownReleasesExactlyWhatIsHeld :
    (State.reset.seq = .idle ∧ State.reset.draws = [] ++ [] ∧ State.reset.held = .none) ∧
      ((start .failed .both 0x00#8 [.err, yes []]).seq = .idle ∧
        (start .failed .both 0x00#8 [.err, yes []]).draws = [.err, yes []] ++ [] ∧
        [.err, yes []].length = ([Request.rela] ++ [Request.relb]).length) := by decide
/-- Each of the three strategies. -/
theorem witness_MeasureRefreshesAndNormalises :
    (start .configured .both 0x04#8 [yes exampleBytes]).seq = .idle ∧
      (start .configured .both 0x04#8 [yes exampleBytes]).state = .configured ∧
      (start .configured .both 0x04#8 [yes exampleBytes]).draws = [yes exampleBytes] ++ [] ∧
      (∀ d ∈ [yes exampleBytes], d.isOk = true) ∧ [yes exampleBytes].length = (fetchPlan true false).length ∧
      (List.replicate 4 (yes [])).length = (fetchPlan false true).length ∧
      (List.replicate 8 (yes [])).length = (fetchPlan false false).length ∧
      ∀ d ∈ List.replicate 8 (yes []), d.isOk = true := by decide
theorem witness_QueriesAnswerOneComponent :
    (start .configured .both 0x02#8 (List.replicate 4 (yes []))).seq = .idle ∧
      (start .configured .both 0x02#8 (List.replicate 4 (yes []))).state = .configured ∧
      (start .configured .both 0x02#8 (List.replicate 4 (yes []))).draws = List.replicate 4 (yes []) ++ [] ∧
      (∀ d ∈ List.replicate 4 (yes []), d.isOk = true) ∧
      (List.replicate 4 (yes [])).length = (fetchPlan ((0x02#8).getLsbD 2) ((0x02#8).getLsbD 1)).length := by decide
/-- A failure of the first transaction, and of the eighth of eight. -/
theorem witness_FetchStopsAtTheFirstFailure :
    (start .configured .both 0x01#8 []).seq = .idle ∧ (start .configured .both 0x01#8 []).state = .configured ∧
      fetches .queryg = true ∧
      ((start .configured .both 0x01#8 [.err]).draws = [] ++ .err :: [] ∧
        ([] : List Draw).length < (fetchPlan false false).length) ∧
      (start .configured .both 0x01#8 (List.replicate 7 (yes []) ++ [.err])).draws =
        List.replicate 7 (yes []) ++ .err :: [] ∧
      (∀ d ∈ List.replicate 7 (yes []), d.isOk = true) ∧
      (List.replicate 7 (yes [])).length < (fetchPlan false false).length := by decide
/-- A fetch that succeeds, and one that the transport leaves waiting. -/
theorem witness_SnapshotIsWrittenWholeOrNotAtAll :
    (∃ t, (start .configured .both 0x04#8 [yes exampleBytes]).seq = .idle ∧ fetches .measure = true ∧
      exec .measure (start .configured .both 0x04#8 [yes exampleBytes]) = .next t ∧ t.raw.clear = 100#16) ∧
      (∃ t, exec .measure (start .configured .both 0x00#8 [yes []]) = .next t ∧ t.responses = []) :=
  ⟨⟨_, rfl, rfl, rfl, by decide⟩, ⟨_, rfl, rfl⟩⟩
theorem witness_ZeroClearGivesZero :
    ({ State.reset with raw := ⟨0#16, 500#16, 7#16, 65535#16⟩ } : State).raw.clear = 0#16 := by decide
/-- Values for each of the clauses (a) to (g): DV-1, DV-11, DV-3, DV-6, DV-7. -/
theorem witness_DividerProperties :
    (0#16).toNat = 0 ∧ (0 < (1#16).toNat ∧ (1#16) = 1#16) ∧ (0 < (1000#16).toNat ∧ (0#16).toNat = 0) ∧
      (0 < (65535#16).toNat ∧ (65534#16).toNat ≤ (65535#16).toNat) ∧
      (0 < (300#16).toNat ∧ (300#16).toNat < (301#16).toNat) ∧ (300#16).toNat ≤ (301#16).toNat := by decide
/-- The one hypothesis of the LDRAW, NORM, SETCTRL and GETR statements, in two states. -/
theorem witness_idle_commands :
    State.reset.seq = .idle ∧ (start .failed .both 0x07#8 []).seq = .idle := by decide
theorem witness_StateMovesOnlyAlongItsEdges :
    ∃ t, (present (start .uninitialized .none 0x00#8 [yes [], yes []]) 0x10000000#32).Inv ∧
      step (present (start .uninitialized .none 0x00#8 [yes [], yes []]) 0x10000000#32) = .next t ∧
      t.state ≠ .uninitialized := ⟨_, by decide, rfl, by decide⟩
theorem witness_HeldAgreesWithStateBetweenCommands :
    ∃ t, (present (start .failed .both 0x00#8 [.err, .err]) 0x13000000#32).Inv ∧
      step (present (start .failed .both 0x00#8 [.err, .err]) 0x13000000#32) = .next t ∧ t.seq = .idle :=
  ⟨_, by decide, rfl, rfl⟩
theorem witness_ReservedControlBitsStayZero :
    ∃ t, (present (start .uninitialized .none 0x07#8 []) 0x40000002#32).ctrl.extractLsb' 3 5 = 0#5 ∧
      (present (start .uninitialized .none 0x07#8 []) 0x40000002#32).seq = .idle ∧
      step (present (start .uninitialized .none 0x07#8 []) 0x40000002#32) = .next t := ⟨_, by decide, rfl, rfl⟩
/-- A fetch that ends OK from two different earlier snapshots. -/
theorem witness_FetchesNeverUseStoredValues :
    ∃ t t', (start .configured .both 0x04#8 [yes exampleBytes]).seq = .idle ∧ fetches .queryr = true ∧
      exec .queryr (start .configured .both 0x04#8 [yes exampleBytes]) = .next t ∧
      exec .queryr { start .configured .both 0x04#8 [yes exampleBytes] with
        raw := ⟨1#16, 2#16, 3#16, 4#16⟩, q := ⟨5#24, 6#24, 7#24⟩, n := ⟨5#8, 6#8, 7#8⟩, ovf := 7#3
        blkbuf := Vector.replicate 32 0xFF#8 } = .next t' ∧
      t.responses = [] ++ [⟨.ok, 127#32⟩] := ⟨_, _, rfl, rfl, rfl, rfl, by decide⟩
/-- A step that writes each register. -/
theorem witness_EachRegisterHasItsOwnWriters :
    (∃ t, (present State.reset 0x40000007#32).Inv ∧ step (present State.reset 0x40000007#32) = .next t ∧
      t.ctrl ≠ State.reset.ctrl) ∧
      (∃ t, (present State.reset 0x30011234#32).Inv ∧ step (present State.reset 0x30011234#32) = .next t ∧
        t.raw ≠ State.reset.raw) ∧
      (∃ t, (present { State.reset with raw := ⟨1#16, 1#16, 0#16, 0#16⟩ } 0x31000000#32).Inv ∧
        step (present { State.reset with raw := ⟨1#16, 1#16, 0#16, 0#16⟩ } 0x31000000#32) = .next t ∧
        t.q ≠ State.reset.q) ∧
      (∃ t, (present (start .busOpen .both 0x00#8 [yes [0x77#8]]) 0x041F0001#32).Inv ∧
        step (present (start .busOpen .both 0x00#8 [yes [0x77#8]]) 0x041F0001#32) = .next t ∧
        t.blkbuf ≠ State.reset.blkbuf) ∧
      (∃ t, (present (start .uninitialized .none 0x00#8 [yes []]) 0x10000000#32).Inv ∧
        step (present (start .uninitialized .none 0x00#8 [yes []]) 0x10000000#32) = .next t ∧ t.held ≠ .none) :=
  ⟨⟨_, by decide, rfl, by decide⟩, ⟨_, by decide, rfl, by decide⟩, ⟨_, by decide, rfl, by decide⟩,
    ⟨_, by decide, rfl, by decide⟩, ⟨_, by decide, rfl, by decide⟩⟩

end Sys2Proof.Tests
end

namespace Sys2Proof.Machine

/-! ### The scope statements (00_scope.md): a command word begins, and its run takes the answers there are

`beginWord` is a command up to its first transaction or its response. One step of an idle block is `beginWord` and then the
run through the answers (log entry 1), so what follows is said of the two parts apart. -/

/-- A command up to its first transaction, or to its response if it issues none. -/
def beginCommand (i : Instr) (s : State) : State :=
  match firstWait i s with
  | some p => s.issue (encode i) p 1
  | none => immediate i s

/-- A command word up to its first transaction, or to its response; an illegal word's response is IllegalCommand. -/
def beginWord (w : Word) (s : State) : State :=
  match decode w with
  | .ok i => beginCommand i s
  | .error _ => s.illegal

theorem exec_eq_settle (i : Instr) (s : State) : exec i s = .next (beginCommand i s).settle := by
  cases h : firstWait i s with
  | some p => simp only [exec_eq, beginCommand, h]
  | none => simp only [exec_eq, beginCommand, h, settle_idle (immediate_ends i s).1]

theorem runWord_eq_settle (w : Word) (s : State) : runWord w s = .next (beginWord w s).settle := by
  cases h : decode w with
  | ok i => simp only [runWord, beginWord, h, exec_eq_settle]
  | error e => simp only [runWord, beginWord, h, settle_idle (State.illegal_seq s)]

theorem step_of_busy {s : State} {cmd : Word} {p : Wait} {k : Nat} (h : s.seq = .busy cmd p k) :
    step s = .next s.settle := by
  simp only [step, h]

theorem step_of_idle {s : State} {w : Word} {ws : List Word} (h : s.seq = .idle) (hw : s.commands = w :: ws) :
    step s = .next (beginWord w (s.setCommands ws)).settle := by
  simp only [step, h, State.takeCommand, hw, runWord_eq_settle]

/-! ### The beginning of a command does not look at the answers to come -/

theorem immediate_setDraws (i : Instr) (s : State) (x : List Draw) :
    immediate i (s.setDraws x) = (immediate i s).setDraws x := by
  cases i with
  | rd16 off => simp only [immediate]; split <;> rfl
  | rdblk off len => simp only [immediate]; split <;> rfl
  | getr idx =>
    have hread : (s.setDraws x).readIndex idx = s.readIndex idx := rfl
    cases h : s.readIndex idx <;> simp only [immediate, hread, h] <;> rfl
  | _ => rfl

theorem beginCommand_setDraws (i : Instr) (s : State) (x : List Draw) :
    beginCommand i (s.setDraws x) = (beginCommand i s).setDraws x := by
  have hfirst : firstWait i (s.setDraws x) = firstWait i s := firstWait_withScripts i s s.commands x
  cases h : firstWait i s with
  | some p => simp only [beginCommand, hfirst, h]; rfl
  | none => simp only [beginCommand, hfirst, h, immediate_setDraws]

theorem beginWord_setDraws (w : Word) (s : State) (x : List Draw) :
    beginWord w (s.setDraws x) = (beginWord w s).setDraws x := by
  cases h : decode w with
  | ok i => simp only [beginWord, h, beginCommand_setDraws]
  | error e => simp only [beginWord, h]; rfl

/-- Settling with the early answers and then with what is left of them and the late ones is settling with both. -/
theorem settle_append (s : State) (early late : List Draw) :
    (s.setDraws (early ++ late)).settle =
      ((s.setDraws early).settle.setDraws ((s.setDraws early).settle.draws ++ late)).settle := by
  simp only [State.settle, State.setDraws_draws, run_setDraws]
  exact run_append s early late

/-- Settles O13: the first step is the command's beginning, which no answer changes, and a run, which may be split. -/
theorem lateAnswersChangeNothing : Obligations.LateAnswersChangeNothing := by
  unfold Obligations.LateAnswersChangeNothing
  intro s t w ws early late hidle hw hstep hbusy
  obtain ⟨cmd, p, k, hbusy⟩ := hbusy
  have first (x : List Draw) :
      step { s with draws := x } = .next ((beginWord w (s.setCommands ws)).setDraws x).settle := by
    rw [← beginWord_setDraws]
    exact step_of_idle (s := s.setDraws x) hidle hw
  have ht : ((beginWord w (s.setCommands ws)).setDraws early).settle = t :=
    Host.Outcome.next.inj ((first early).symm.trans hstep)
  rw [first, settle_append, ht]
  exact (step_of_busy (s := t.setDraws (t.draws ++ late)) hbusy).symm

/-! ### A command that is answered ends -/

/-- `t` is `s` after a command that has ended: the block is idle, one response was added and at most `n` transactions logged,
and the port is as it was. -/
def EndsWithin (n : Nat) (s t : State) : Prop :=
  t.seq = .idle ∧ t.commands = s.commands ∧
    ∃ r entries, t.responses = s.responses ++ [r] ∧ t.log = s.log ++ entries ∧ entries.length ≤ n

/-- A position waits on an answer, and on no more than eight: the longest command is a composed `Fetch()` (42_measure.md
R140). -/
theorem Wait.remaining_bounds (p : Wait) : 0 < p.remaining ∧ p.remaining ≤ 8 := by
  cases p with
  | lowByte u | highByte u | nativeWord u => cases u <;> simp [Wait.remaining]
  | configWrite k => cases k <;> simp [Wait.remaining, CfgStep.number]
  | _ => simp [Wait.remaining]

@[simp] theorem run_commands (s : State) (ds : List Draw) : (s.run ds).commands = s.commands :=
  calc (s.run ds).commands = ((s.run ds).setCommands s.commands).commands :=
        congrArg State.commands (run_withScripts s ds s.commands s.draws)
    _ = s.commands := rfl

/-- By induction on the answers: each is logged once, and takes the command to its response or nearer to it. -/
theorem run_endsWithin {s : State} {cmd : Word} {p : Wait} {k : Nat} (h : s.seq = .busy cmd p k) {ds : List Draw}
    (hds : p.remaining ≤ ds.length) : EndsWithin p.remaining s (s.run ds) := by
  refine and_left_comm.mp ⟨run_commands s ds, ?_⟩
  induction ds generalizing s p k with
  | nil => exact absurd hds (Nat.not_le.mpr p.remaining_bounds.1)
  | cons d ds ih =>
    rw [run_busy h]
    obtain ⟨hlog, ⟨hidle, r, hr⟩ | ⟨hr, p', hbusy, hlt⟩⟩ := after_cases (s.record p.request d) cmd p k d
    · rw [run_idle hidle]
      exact ⟨hidle, r, _, hr, hlog, p.remaining_bounds.1⟩
    · rw [List.length_cons] at hds
      obtain ⟨hend, r, entries, hresp, hrun, hlen⟩ := ih hbusy (by omega)
      refine ⟨hend, r, ⟨p.request, d.answer p.request⟩ :: entries, by rw [hresp, hr]; rfl, ?_, ?_⟩
      · rw [hrun, hlog, State.record_log, List.append_assoc, List.singleton_append]
      · rw [List.length_cons]
        omega

theorem settle_beginCommand_endsWithin (i : Instr) {s : State} (h : 8 ≤ s.draws.length) :
    EndsWithin 8 s (beginCommand i s).settle := by
  cases hp : firstWait i s with
  | some p =>
    obtain ⟨hidle, hport, r, entries, hr, hlog, hlen⟩ :=
      run_endsWithin (s := s.issue (encode i) p 1) rfl (p.remaining_bounds.2.trans h)
    simp only [beginCommand, hp]
    exact ⟨hidle, hport, r, entries, hr, hlog, hlen.trans p.remaining_bounds.2⟩
  | none =>
    obtain ⟨hidle, hlog, -, hport, r, hr⟩ := immediate_ends i s
    simp only [beginCommand, hp, settle_idle hidle]
    exact ⟨hidle, hport, r, [], hr, by rw [hlog, List.append_nil], Nat.zero_le 8⟩

theorem settle_beginWord_endsWithin (w : Word) {s : State} (h : 8 ≤ s.draws.length) :
    EndsWithin 8 s (beginWord w s).settle := by
  cases hw : decode w with
  | ok i =>
    simp only [beginWord, hw]
    exact settle_beginCommand_endsWithin i h
  | error e =>
    simp only [beginWord, hw, settle_idle (State.illegal_seq s)]
    exact ⟨rfl, rfl, _, [], rfl, (List.append_nil s.log).symm, Nat.zero_le 8⟩

/-- Settles O14: eight answers are enough for the run from any command's first transaction. -/
theorem everyCommandEndsInOneResponse : Obligations.EveryCommandEndsInOneResponse := by
  unfold Obligations.EveryCommandEndsInOneResponse
  intro s w ws hidle hw hdraws
  obtain ⟨hend, hport, r, entries, hr, hlog, hlen⟩ :=
    settle_beginWord_endsWithin w (s := s.setCommands ws) hdraws
  exact ⟨_, r, entries, step_of_idle hidle hw, hend, hport, hr, hlog, hlen⟩

end Sys2Proof.Machine

namespace Sys2Proof

/-! ### The decoder reads the encoder's word back (30_encoding.md R82-R84) -/

/-- A word that decodes has passed the operand check of R85. -/
theorem wellFormed_of_decode {w : Word} {i : Instr} (h : decode w = .ok i) : i.wellFormed = true := by
  unfold decode at h
  split at h
  · split at h <;> cases h
  · split at h
    next hw =>
      cases h
      exact hw
    next => cases h

theorem channelOf_channelBits (ch : Channel) : channelOf (channelBits ch) = ch := by
  cases ch <;> rfl

/-- The operands of the formats FAD and FAL (R82). -/
theorem offset_byte_fields (op : Byte) (off : Offset) (low : Byte) :
    offField (op ++ 0#3 ++ off ++ 0#8 ++ low) = off ∧ lowField (op ++ 0#3 ++ off ++ 0#8 ++ low) = low := by
  constructor
  · refine BitVec.eq_of_getLsbD_eq fun k hk => ?_
    simp only [offField, BitVec.getLsbD_extractLsb', BitVec.getLsbD_append]
    interval_cases k <;> simp
  · refine BitVec.eq_of_getLsbD_eq fun k hk => ?_
    simp only [lowField, BitVec.getLsbD_extractLsb', BitVec.getLsbD_append]
    interval_cases k <;> simp

theorem encode_rd8_field (off : Offset) : offField (encode (.rd8 off)) = off := by
  revert off; decide

theorem encode_rd16_field (off : Offset) : offField (encode (.rd16 off)) = off := by
  revert off; decide

theorem encode_config_fields (atime gain : Byte) :
    midField (encode (.config atime gain)) = atime ∧ lowField (encode (.config atime gain)) = gain := by
  constructor
  · refine BitVec.eq_of_getLsbD_eq fun k hk => ?_
    simp only [encode, midField, BitVec.getLsbD_extractLsb', BitVec.getLsbD_append]
    interval_cases k <;> simp
  · refine BitVec.eq_of_getLsbD_eq fun k hk => ?_
    simp only [encode, lowField, BitVec.getLsbD_extractLsb', BitVec.getLsbD_append]
    interval_cases k <;> simp

theorem encode_ldraw_fields (ch : Channel) (v : Half) :
    channelOf (chField (encode (.ldraw ch v))) = ch ∧ valueField (encode (.ldraw ch v)) = v := by
  have hch : chField (encode (.ldraw ch v)) = channelBits ch := by
    refine BitVec.eq_of_getLsbD_eq fun k hk => ?_
    simp only [encode, chField, BitVec.getLsbD_extractLsb', BitVec.getLsbD_append]
    interval_cases k <;> simp
  refine ⟨by rw [hch, channelOf_channelBits], BitVec.eq_of_getLsbD_eq fun k hk => ?_⟩
  simp only [encode, valueField, BitVec.getLsbD_extractLsb', BitVec.getLsbD_append]
  interval_cases k <;> simp

theorem encode_setctrl_field (ctl : BitVec 3) : ctlField (encode (.setctrl ctl)) = ctl := by
  revert ctl; decide

theorem encode_getr_field (idx : Byte) : idxField (encode (.getr idx)) = idx := by
  refine BitVec.eq_of_getLsbD_eq fun k hk => ?_
  simp only [encode, idxField, BitVec.getLsbD_extractLsb', BitVec.getLsbD_append]
  interval_cases k <;> simp

/-- An instruction's word has the bits of its row of the opcode map, and the row reads the operands back. -/
theorem encode_matches_row (i : Instr) : ∃ r ∈ rows, r.operands (encode i) = i ∧
    ∀ k < 32, ((encode i).getLsbD k && r.mask.getLsbD k) = r.value.getLsbD k := by
  cases i with
  | wrreg off data =>
    obtain ⟨hoff, hdata⟩ := offset_byte_fields 0x01#8 off data
    refine ⟨rows[0], List.getElem_mem _, congrArg₂ Instr.wrreg hoff hdata, fun k hk => ?_⟩
    show ((encode _).getLsbD k && (0xFFE0FF00#32).getLsbD k) = (0x01000000#32).getLsbD k
    simp only [encode, BitVec.getLsbD_append]
    interval_cases k <;> simp
  | rd8 off => exact ⟨rows[1], List.getElem_mem _, congrArg Instr.rd8 (encode_rd8_field off), by revert off; decide⟩
  | rd16 off => exact ⟨rows[2], List.getElem_mem _, congrArg Instr.rd16 (encode_rd16_field off), by revert off; decide⟩
  | rdblk off len =>
    obtain ⟨hoff, hlen⟩ := offset_byte_fields 0x04#8 off len
    refine ⟨rows[3], List.getElem_mem _, congrArg₂ Instr.rdblk hoff hlen, fun k hk => ?_⟩
    show ((encode _).getLsbD k && (0xFFE0FF00#32).getLsbD k) = (0x04000000#32).getLsbD k
    simp only [encode, BitVec.getLsbD_append]
    interval_cases k <;> simp
  | openBus => exact ⟨rows[4], List.getElem_mem _, rfl, by decide⟩
  | config atime gain =>
    obtain ⟨hatime, hgain⟩ := encode_config_fields atime gain
    refine ⟨rows[5], List.getElem_mem _, congrArg₂ Instr.config hatime hgain, fun k hk => ?_⟩
    show ((encode _).getLsbD k && (0xFFFF0000#32).getLsbD k) = (0x11000000#32).getLsbD k
    simp only [encode, BitVec.getLsbD_append]
    interval_cases k <;> simp
  | configd => exact ⟨rows[6], List.getElem_mem _, rfl, by decide⟩
  | teardown => exact ⟨rows[7], List.getElem_mem _, rfl, by decide⟩
  | measure => exact ⟨rows[8], List.getElem_mem _, rfl, by decide⟩
  | queryr => exact ⟨rows[9], List.getElem_mem _, rfl, by decide⟩
  | queryg => exact ⟨rows[10], List.getElem_mem _, rfl, by decide⟩
  | queryb => exact ⟨rows[11], List.getElem_mem _, rfl, by decide⟩
  | ldraw ch v =>
    obtain ⟨hch, hv⟩ := encode_ldraw_fields ch v
    refine ⟨rows[12], List.getElem_mem _, congrArg₂ Instr.ldraw hch hv, fun k hk => ?_⟩
    show ((encode _).getLsbD k && (0xFFFC0000#32).getLsbD k) = (0x30000000#32).getLsbD k
    simp only [encode, BitVec.getLsbD_append]
    interval_cases k <;> simp
  | norm => exact ⟨rows[13], List.getElem_mem _, rfl, by decide⟩
  | setctrl ctl =>
    exact ⟨rows[14], List.getElem_mem _, congrArg Instr.setctrl (encode_setctrl_field ctl), by revert ctl; decide⟩
  | getr idx =>
    refine ⟨rows[15], List.getElem_mem _, congrArg Instr.getr (encode_getr_field idx), fun k hk => ?_⟩
    show ((encode _).getLsbD k && (0xFF00FFFF#32).getLsbD k) = (0x41000000#32).getLsbD k
    simp only [encode, BitVec.getLsbD_append]
    interval_cases k <;> simp

theorem decode_encode {i : Instr} (h : i.wellFormed = true) : decode (encode i) = .ok i := by
  obtain ⟨r, hr, hi, hbits⟩ := encode_matches_row i
  have hc : r.covers (encode i) = true :=
    beq_iff_eq.mpr (BitVec.eq_of_getLsbD_eq fun k hk => by rw [BitVec.getLsbD_and, hbits k hk])
  simp only [decode, find_of_covers hr hc, hi, h, if_true]

end Sys2Proof

namespace Sys2Proof.Machine

/-! ### What a command does between two transactions, said once

A command's run is a chain of effects: up to its first transaction, and from each answer to the next transaction or the
response. `Effect` lists them with the command and the state each belongs to; what a step of a legal state keeps or
changes is read off it. -/

/-- What HELD is between commands (10_state.md R24). -/
def heldIn : DriverState → Held
  | .uninitialized => .none
  | _ => .both

/-- `Effect cmd i s t`: working on the command `i` of the word `cmd`, the block goes from `s` to `t`. -/
inductive Effect (cmd : Word) (i : Instr) (s : State) : State → Prop
  /-- a transaction is issued (R37) -/
  | issues {p : Wait} {k : Nat} (belongs : p.belongsTo i = true) (admitted : p.admitted s = true)
      (number : k = p.number) : Effect cmd i s (s.issue cmd p k)
  /-- a response that changes no register -/
  | responds (st : Status) (v : Word) (held : s.held = heldIn s.state) : Effect cmd i s (s.respond st v)
  /-- OPEN has the bus and claims the address (R121) -/
  | acquires (instr : i = .openBus) (state : s.state = .uninitialized) :
      Effect cmd i s ((s.setHeld .busOnly).issue cmd .claim 2)
  /-- OPEN succeeds (R121) -/
  | opens (instr : i = .openBus) (state : s.state = .uninitialized) :
      Effect cmd i s (((s.setHeld .both).setState .busOpen).respond .ok 0#32)
  /-- OPEN's rollback is over (R122) -/
  | rollsBack (instr : i = .openBus) (state : s.state = .uninitialized) (st : Status) (v : Word) :
      Effect cmd i s ((s.setHeld .none).respond st v)
  /-- the four configuration writes succeeded (R123) -/
  | configures (instr : configures i = true) (state : s.state = .busOpen) (held : s.held = .both) :
      Effect cmd i s ((s.setState .configured).respond .ok 0#32)
  /-- a configuration write failed (R125) -/
  | configFails (instr : configures i = true) (state : s.state = .busOpen) (held : s.held = .both) (v : Word) :
      Effect cmd i s ((s.setState .failed).respond .configStepError v)
  /-- a BR failed under HARDFAIL (R103) -/
  | hardFails (instr : mayReadBytes i = true) (state : s.handleOpen = true) (held : s.held = .both)
      (hardFail : s.hardFail = true) (log : byteReadFailed s.log = true) (v : Word) :
      Effect cmd i s ((s.setState .failed).respond .busError v)
  /-- TEARDOWN has released the address and releases the bus (R127) -/
  | releases (instr : i = .teardown) (state : s.state ≠ .uninitialized) {m : Word} (mask : m = 0#32 ∨ m = 1#32) :
      Effect cmd i s ((s.setHeld .busOnly).issue cmd (.releaseBus m) 2)
  /-- TEARDOWN ends (R127) -/
  | tearsDown (instr : i = .teardown) (m : Word) : Effect cmd i s ((s.setHeld .none).finishTeardown m)
  /-- RDBLK succeeds (R107) -/
  | storesBlock {off : Offset} {len : Byte} (instr : i = .rdblk off len) (held : s.held = heldIn s.state)
      (bytes : List Byte) (v : Word) : Effect cmd i s ((s.setBlock bytes).respond .ok v)
  /-- a `Fetch()` succeeds (R141, R145) -/
  | finishesFetch (instr : fetches i = true) (held : s.held = heldIn s.state) (rep : Report) (snapshot : RawChannels) :
      Effect cmd i s (s.finishFetch rep snapshot)
  /-- LDRAW (R165) -/
  | loadsRaw {ch : Channel} {v : Half} (instr : i = .ldraw ch v) (held : s.held = heldIn s.state) :
      Effect cmd i s ((s.setRaw (s.raw.set ch v)).respond .ok 0#32)
  /-- NORM (R166) -/
  | divides (instr : i = .norm) (held : s.held = heldIn s.state) :
      Effect cmd i s (s.divide.respond .ok s.divide.normWord)
  /-- SETCTRL (R180) -/
  | setsCtrl {ctl : BitVec 3} (instr : i = .setctrl ctl) (held : s.held = heldIn s.state) :
      Effect cmd i s ((s.setCtrl (ctl.setWidth 8)).respond .ok 0#32)

/-! #### What every effect keeps -/

theorem Effect.log {cmd : Word} {i : Instr} {s t : State} (h : Effect cmd i s t) : t.log = s.log := by
  cases h <;> rfl

theorem seqLegal_of_idle {s : State} (hs : s.seq = .idle) : s.seqLegal = true ↔ s.held = heldIn s.state := by
  cases h : s.state <;> simp [State.seqLegal, hs, h, heldIn]

theorem seqLegal_of_busy {s : State} {cmd : Word} {p : Wait} {k : Nat} (hs : s.seq = .busy cmd p k) :
    s.seqLegal = true ↔
      ∃ i, decode cmd = .ok i ∧ p.belongsTo i = true ∧ p.admitted s = true ∧ k = p.number := by
  cases h : decode cmd <;> simp [State.seqLegal, hs, h, and_assoc]

theorem setWidth_reserved (ctl : BitVec 3) : (ctl.setWidth 8).extractLsb' 3 5 = 0#5 := by
  revert ctl; decide

theorem Effect.ctrlLegal {cmd : Word} {i : Instr} {s t : State} (h : Effect cmd i s t) (hs : s.ctrlLegal) :
    t.ctrlLegal := by
  cases h with
  | setsCtrl => exact setWidth_reserved _
  | _ => exact hs

theorem Effect.dividerLegal {cmd : Word} {i : Instr} {s t : State} (h : Effect cmd i s t) (hs : s.dividerLegal) :
    t.dividerLegal := by
  cases h with
  | finishesFetch | divides => exact divide_dividerLegal _
  | _ => exact hs

theorem Effect.seqLegal {cmd : Word} {i : Instr} {s t : State} (h : Effect cmd i s t) (hi : decode cmd = .ok i) :
    t.seqLegal = true := by
  have busy {p : Wait} {k : Nat} {u : State} (hu : u.seq = .busy cmd p k) (hb : p.belongsTo i = true)
      (ha : p.admitted u = true) (hk : k = p.number) : u.seqLegal = true :=
    (seqLegal_of_busy hu).mpr ⟨i, hi, hb, ha, hk⟩
  cases h with
  | @issues p k hb ha hk => exact busy rfl hb (by cases p <;> exact ha) hk
  | acquires hi hst => exact busy rfl (by simp [Wait.belongsTo, hi]) (by simp [Wait.admitted, hst]) rfl
  | releases hi hst hm => exact busy rfl (by simp [Wait.belongsTo, hi]) (by simp [Wait.admitted, hst, hm]) rfl
  | responds _ _ hh | storesBlock _ hh | finishesFetch _ hh | loadsRaw _ hh | divides _ hh | setsCtrl _ hh
  | configures _ _ hh | configFails _ _ hh | hardFails _ _ hh => exact (seqLegal_of_idle rfl).mpr hh
  | rollsBack _ hst => exact (seqLegal_of_idle rfl).mpr (congrArg heldIn hst).symm
  | opens | tearsDown => exact (seqLegal_of_idle rfl).mpr rfl

theorem Effect.inv {cmd : Word} {i : Instr} {s t : State} (h : Effect cmd i s t) (hi : decode cmd = .ok i)
    (hc : s.ctrlLegal) (hd : s.dividerLegal) (hl : s.logLegal) : t.Inv :=
  ⟨h.ctrlLegal hc, h.dividerLegal hd, by rw [State.logLegal, h.log]; exact hl, h.seqLegal hi⟩

/-! #### Every answer has one of the effects -/

theorem handleOpen_iff (s : State) : s.handleOpen = true ↔ s.state = .busOpen ∨ s.state = .configured := by
  simp [State.handleOpen]

theorem heldIn_of_handleOpen {s : State} (h : s.handleOpen = true) (hh : s.held = .both) : s.held = heldIn s.state := by
  rcases (handleOpen_iff s).mp h with h | h <;> rw [hh, h] <;> rfl

/-- A 16-bit read is made with the handle open and both resources held. -/
theorem Use16.handleOpen_of_admitted {use : Use16} {s : State} (h : use.admitted s = true) :
    s.handleOpen = true ∧ s.held = .both := by
  cases use with
  | rd16 => simpa [Use16.admitted] using h
  | _ =>
    obtain ⟨⟨hst, hh⟩, -⟩ : (s.state = .configured ∧ s.held = .both) ∧ s.burst = false := by
      simpa [Use16.admitted] using h
    exact ⟨(handleOpen_iff s).mpr (.inr hst), hh⟩

theorem Report.instr_facts (rep : Report) : mayReadBytes rep.instr = true ∧ fetches rep.instr = true := by
  cases rep <;> exact ⟨rfl, rfl⟩

theorem Use16.mayReadBytes_of_belongsTo {use : Use16} {off : Offset} {i : Instr} (h : use.belongsTo off i = true) :
    mayReadBytes i = true := by
  cases use with
  | rd16 =>
    simp only [Use16.belongsTo, Bool.and_eq_true, beq_iff_eq] at h
    rw [h.1]
    rfl
  | clear rep | red rep | green rep | blue rep =>
    simp only [Use16.belongsTo, Bool.and_eq_true, beq_iff_eq] at h
    rw [h.1]
    exact (Report.instr_facts rep).1

section Effects
variable {cmd : Word} {i : Instr} {s : State}

theorem beginRead16_effect {use : Use16} {off : Offset} {k : Nat} (hb : use.belongsTo off i = true)
    (ha : use.admitted s = true) (hk : k = use.firstTxn s.w16) : Effect cmd i s (s.beginRead16 cmd use off k) := by
  unfold State.beginRead16
  split
  next hw => exact .issues hb (by simp [Wait.admitted, ha, hw]) (by rw [hk, hw]; rfl)
  next hw =>
    rw [Bool.not_eq_true] at hw
    exact .issues hb (by simp [Wait.admitted, ha, hw]) (by rw [hk, hw]; rfl)

theorem byteReadError_effect (hi : mayReadBytes i = true) (ho : s.handleOpen = true) (hh : s.held = .both)
    (hl : byteReadFailed s.log = true) (k : Nat) : Effect cmd i s (s.byteReadError k) := by
  unfold State.byteReadError
  split
  next hf => exact .hardFails hi ho hh hf hl _
  next => exact .responds _ _ (heldIn_of_handleOpen ho hh)

/-- `k` is the number of the read's last transaction. -/
theorem deliver16_effect {use : Use16} {off : Offset} {k : Nat} (hb : use.belongsTo off i = true)
    (ha : use.admitted s = true) (hk : k = use.firstTxn s.w16 + if s.w16 then 0 else 1) (v : Half) :
    Effect cmd i s (s.deliver16 cmd use v k) := by
  obtain ⟨ho, hh⟩ := Use16.handleOpen_of_admitted ha
  have hheld := heldIn_of_handleOpen ho hh
  cases use with
  | rd16 => exact .responds _ _ hheld
  | clear rep | red rep | green rep =>
    simp only [Use16.belongsTo, Bool.and_eq_true, beq_iff_eq] at hb
    refine beginRead16_effect (by simp [Use16.belongsTo, hb.1]) ha ?_
    cases hw : s.w16 <;> simp [hk, hw, Use16.firstTxn]
  | blue rep c r g =>
    simp only [Use16.belongsTo, Bool.and_eq_true, beq_iff_eq] at hb
    exact .finishesFetch (by rw [hb.1]; exact (Report.instr_facts rep).2) hheld _ _

theorem configures_of_belongsTo {c : CfgStep} {a g : Byte} (h : (Wait.configWrite c a g).belongsTo i = true) :
    configures i = true := by
  simp only [Wait.belongsTo, Bool.or_eq_true, Bool.and_eq_true, beq_iff_eq] at h
  rcases h with rfl | ⟨⟨rfl, -⟩, -⟩ <;> rfl

/-- The next write of the sequence, or its end (R123, R125). -/
theorem afterConfigWrite_effect {c : CfgStep} {a g : Byte} (hb : (Wait.configWrite c a g).belongsTo i = true)
    (hs : s.state = .busOpen) (hh : s.held = .both) (d : Draw) :
    Effect cmd i s (s.afterConfigWrite cmd c a g c.number d) := by
  have hi := configures_of_belongsTo hb
  have next (c' : CfgStep) {k : Nat} (hk : k = c'.number) : Effect cmd i s (s.issue cmd (.configWrite c' a g) k) :=
    .issues hb (by simp [Wait.admitted, hs, hh]) hk
  cases d with
  | err => exact .configFails hi hs hh _
  | ok b =>
    cases c with
    | powerOn => exact next .adcEnable rfl
    | adcEnable => exact next .integration rfl
    | integration => exact next .gain rfl
    | gain => exact .configures hi hs hh

/-- TEARDOWN goes on to RELB whatever RELA answered (R127, R128). -/
theorem afterReleaseAddr_effect (hi : i = .teardown) (hs : s.state ≠ .uninitialized) (hh : s.held = .both) (d : Draw) :
    Effect cmd i s (s.afterReleaseAddr cmd 1 d) := by
  have hheld : { s.held with addr := false } = Held.busOnly := by rw [hh]
  cases d <;> simp only [State.afterReleaseAddr, hheld]
  · exact .releases hi hs (.inr rfl)
  · exact .releases hi hs (.inl rfl)

theorem afterReleaseBus_effect (hi : i = .teardown) (hh : s.held = .busOnly) (m : Word) (d : Draw) :
    Effect cmd i s (s.afterReleaseBus m d) := by
  have hheld : { s.held with bus := false } = Held.none := by rw [hh]
  cases d <;> simp only [State.afterReleaseBus, hheld] <;> exact .tearsDown hi _

/-- What follows an answer, for a position that belongs to the command in progress and is reached in `s`, the answer
already in the log. -/
theorem after_effect {p : Wait} {d : Draw} (hb : p.belongsTo i = true) (ha : p.admitted s = true)
    (hlog : ∀ c, p.request = .br c → d = .err → byteReadFailed s.log = true) :
    Effect cmd i s (s.after cmd p p.number d) := by
  have opened : (s.handleOpen && s.held == .both) = true → s.handleOpen = true ∧ s.held = .both := by simp
  cases p with
  | writeByte off data =>
    have hheld := heldIn_of_handleOpen (opened ha).1 (opened ha).2
    cases d <;> exact .responds _ _ hheld
  | readByte off =>
    obtain ⟨ho, hh⟩ := opened ha
    have hi : i = .rd8 off := by simpa [Wait.belongsTo] using hb
    cases d with
    | err => exact byteReadError_effect (by rw [hi]; rfl) ho hh (hlog _ rfl rfl) _
    | ok b => exact .responds _ _ (heldIn_of_handleOpen ho hh)
  | lowByte use off =>
    obtain ⟨hadm, hw⟩ : use.admitted s = true ∧ s.w16 = false := by simpa [Wait.admitted] using ha
    obtain ⟨ho, hh⟩ := Use16.handleOpen_of_admitted hadm
    cases d with
    | err => exact byteReadError_effect (Use16.mayReadBytes_of_belongsTo hb) ho hh (hlog _ rfl rfl) _
    | ok b => exact .issues hb ha rfl
  | highByte use off lo =>
    obtain ⟨hadm, hw⟩ : use.admitted s = true ∧ s.w16 = false := by simpa [Wait.admitted] using ha
    obtain ⟨ho, hh⟩ := Use16.handleOpen_of_admitted hadm
    cases d with
    | err => exact byteReadError_effect (Use16.mayReadBytes_of_belongsTo hb) ho hh (hlog _ rfl rfl) _
    | ok b => exact deliver16_effect hb hadm (by simp [hw, Wait.number]) _
  | nativeWord use off =>
    obtain ⟨hadm, hw⟩ : use.admitted s = true ∧ s.w16 = true := by simpa [Wait.admitted] using ha
    obtain ⟨ho, hh⟩ := Use16.handleOpen_of_admitted hadm
    cases d with
    | err => exact .responds _ _ (heldIn_of_handleOpen ho hh)
    | ok b => exact deliver16_effect hb hadm (by simp [hw, Wait.number]) _
  | readBlock off len =>
    have hheld := heldIn_of_handleOpen (opened ha).1 (opened ha).2
    simp only [Wait.belongsTo, Bool.and_eq_true, beq_iff_eq] at hb
    cases d with
    | err => exact .responds _ _ hheld
    | ok b => exact .storesBlock hb.1 hheld _ _
  | burst rep =>
    obtain ⟨⟨hs, hh⟩, -⟩ : (s.state = .configured ∧ s.held = .both) ∧ s.burst = true := by
      simpa [Wait.admitted] using ha
    have hheld : s.held = heldIn s.state := by rw [hs, hh]; rfl
    obtain rfl : i = rep.instr := by simpa [Wait.belongsTo] using hb
    cases d with
    | err => exact .responds _ _ hheld
    | ok b => exact .finishesFetch (Report.instr_facts rep).2 hheld _ _
  | acquire =>
    obtain ⟨hs, hh⟩ : s.state = .uninitialized ∧ s.held = .none := by simpa [Wait.admitted] using ha
    have hi : i = .openBus := by simpa [Wait.belongsTo] using hb
    have hheld : { s.held with bus := true } = Held.busOnly := by rw [hh]
    cases d with
    | err => exact .responds _ _ (show s.held = heldIn s.state by rw [hs, hh]; rfl)
    | ok b =>
      simp only [State.after, State.afterAcquire, hheld]
      exact .acquires hi hs
  | claim =>
    obtain ⟨hs, hh⟩ : s.state = .uninitialized ∧ s.held = .busOnly := by simpa [Wait.admitted] using ha
    have hi : i = .openBus := by simpa [Wait.belongsTo] using hb
    have hheld : { s.held with addr := true } = Held.both := by rw [hh]
    cases d with
    | err => exact .issues hb ha rfl
    | ok b =>
      simp only [State.after, State.afterClaim, hheld]
      exact .opens hi hs
  | rollback =>
    obtain ⟨hs, hh⟩ : s.state = .uninitialized ∧ s.held = .busOnly := by simpa [Wait.admitted] using ha
    have hi : i = .openBus := by simpa [Wait.belongsTo] using hb
    have hheld : { s.held with bus := false } = Held.none := by rw [hh]
    cases d <;> simp only [State.after, State.afterRollback, hheld] <;>
      exact .rollsBack hi hs _ _
  | configWrite c a g =>
    obtain ⟨hs, hh⟩ : s.state = .busOpen ∧ s.held = .both := by simpa [Wait.admitted] using ha
    exact afterConfigWrite_effect hb hs hh d
  | releaseAddr =>
    obtain ⟨hs, hh⟩ : s.state ≠ .uninitialized ∧ s.held = .both := by simpa [Wait.admitted] using ha
    exact afterReleaseAddr_effect (by simpa [Wait.belongsTo] using hb) hs hh d
  | releaseBus m =>
    obtain ⟨⟨-, hh⟩, -⟩ : (s.state ≠ .uninitialized ∧ s.held = .busOnly) ∧ (m = 0#32 ∨ m = 1#32) := by
      simpa [Wait.admitted] using ha
    exact afterReleaseBus_effect (by simpa [Wait.belongsTo] using hb) hh m d

/-! #### The beginning of a command is one of the effects -/

theorem held_of_handleOpen (hs : s.held = heldIn s.state) (h : s.handleOpen = true) : s.held = .both := by
  rcases (handleOpen_iff s).mp h with h | h <;> rw [hs, h] <;> rfl

/-- The three strategies of `Fetch()` (R140). -/
theorem fetchWait_legal (hs : s.held = heldIn s.state) {rep : Report} (hi : i = rep.instr) {p : Wait}
    (hp : (if s.state = .configured then some (fetchWait rep s) else none) = some p) :
    p.belongsTo i = true ∧ p.admitted s = true ∧ p.number = 1 := by
  obtain ⟨hst, rfl⟩ : s.state = .configured ∧ fetchWait rep s = p := by simpa using hp
  have hh : s.held = .both := by rw [hs, hst]; rfl
  unfold fetchWait
  cases hb : s.burst <;> cases hw : s.w16 <;>
    simp [Wait.belongsTo, Use16.belongsTo, Wait.admitted, Use16.admitted, Wait.number, Use16.firstTxn, hi, hst, hh, hb,
      hw]

/-- The first transaction belongs to its command, in a state between commands that admits it. -/
theorem firstWait_legal (hs : s.held = heldIn s.state) {p : Wait} (hp : firstWait i s = some p) :
    p.belongsTo i = true ∧ p.admitted s = true ∧ p.number = 1 := by
  cases i with
  | wrreg off data =>
    obtain ⟨ho, rfl⟩ : s.handleOpen = true ∧ .writeByte off data = p := by simpa [firstWait] using hp
    exact ⟨by simp [Wait.belongsTo], by simp [Wait.admitted, ho, held_of_handleOpen hs ho], rfl⟩
  | rd8 off =>
    obtain ⟨ho, rfl⟩ : s.handleOpen = true ∧ .readByte off = p := by simpa [firstWait] using hp
    exact ⟨by simp [Wait.belongsTo], by simp [Wait.admitted, ho, held_of_handleOpen hs ho], rfl⟩
  | rd16 off =>
    obtain ⟨⟨hr, ho⟩, rfl⟩ : (pairInRange off ∧ s.handleOpen = true) ∧
        (if s.w16 then Wait.nativeWord .rd16 off else .lowByte .rd16 off) = p := by simpa [firstWait] using hp
    have hh := held_of_handleOpen hs ho
    cases hw : s.w16 <;>
      simp [Wait.belongsTo, Use16.belongsTo, Wait.admitted, Use16.admitted, Wait.number, Use16.firstTxn,
        Instr.wellFormed, hr, ho, hh, hw]
  | rdblk off len =>
    obtain ⟨⟨hr, ho⟩, rfl⟩ : (blockInRange off len ∧ s.handleOpen = true) ∧ .readBlock off len = p := by
      simpa [firstWait] using hp
    exact ⟨by simp [Wait.belongsTo, Instr.wellFormed, hr], by simp [Wait.admitted, ho, held_of_handleOpen hs ho], rfl⟩
  | openBus =>
    obtain ⟨hst, rfl⟩ : s.state = .uninitialized ∧ .acquire = p := by simpa [firstWait] using hp
    exact ⟨rfl, by simp [Wait.admitted, hs, hst, heldIn], rfl⟩
  | config atime gain =>
    obtain ⟨hst, rfl⟩ : s.state = .busOpen ∧ .configWrite .powerOn atime gain = p := by simpa [firstWait] using hp
    exact ⟨by simp [Wait.belongsTo], by simp [Wait.admitted, hs, hst, heldIn], rfl⟩
  | configd =>
    obtain ⟨hst, rfl⟩ : s.state = .busOpen ∧ .configWrite .powerOn Config.defaultAtime Config.defaultGain = p := by
      simpa [firstWait] using hp
    exact ⟨by simp [Wait.belongsTo], by simp [Wait.admitted, hs, hst, heldIn], rfl⟩
  | teardown =>
    cases hst : s.state <;> simp [firstWait, hs, hst, heldIn] at hp <;> subst hp <;>
      exact ⟨rfl, by simp [Wait.admitted, hs, hst, heldIn], rfl⟩
  | measure => exact fetchWait_legal hs rfl hp
  | queryr => exact fetchWait_legal hs rfl hp
  | queryg => exact fetchWait_legal hs rfl hp
  | queryb => exact fetchWait_legal hs rfl hp
  | ldraw | norm | setctrl | getr => cases hp

theorem immediate_effect (hs : s.held = heldIn s.state) (hp : firstWait i s = none) :
    Effect cmd i s (immediate i s) := by
  cases i with
  | rd16 | rdblk | getr =>
    simp only [immediate]
    split <;> exact .responds _ _ hs
  | teardown =>
    have hh : s.held = .none := by
      cases hst : s.state <;> simp [firstWait, hs, hst, heldIn] at hp ⊢
    have h := Effect.tearsDown (cmd := cmd) (s := s) (i := .teardown) rfl 0#32
    rwa [← hh] at h
  | ldraw ch v => exact .loadsRaw rfl hs
  | norm => exact .divides rfl hs
  | setctrl ctl => exact .setsCtrl rfl hs
  | _ => exact .responds _ _ hs

theorem beginCommand_effect (hs : s.held = heldIn s.state) : Effect (encode i) i s (beginCommand i s) := by
  cases hp : firstWait i s with
  | some p =>
    obtain ⟨hb, ha, hk⟩ := firstWait_legal hs hp
    simp only [beginCommand, hp]
    exact .issues hb ha hk.symm
  | none =>
    simp only [beginCommand, hp]
    exact immediate_effect hs hp

end Effects

theorem admitted_record (p : Wait) (s : State) (r : Request) (d : Draw) :
    p.admitted (s.record r d) = p.admitted s := by
  cases p with
  | lowByte use | highByte use | nativeWord use => cases use <;> rfl
  | _ => rfl

/-- Each answer to a legal busy block has an effect, and gives a legal state. -/
theorem answered_effect {s : State} (hs : s.Inv) {cmd : Word} {p : Wait} {k : Nat} {i : Instr}
    (h : s.seq = .busy cmd p k) (hi : decode cmd = .ok i) (d : Draw) :
    Effect cmd i (s.record p.request d) (s.answered d) ∧ (s.answered d).Inv := by
  obtain ⟨hc, hd, hl, hq⟩ := hs
  obtain ⟨i', hi', hb, ha, rfl⟩ := (seqLegal_of_busy h).mp hq
  obtain rfl : i = i' := Except.ok.inj (hi.symm.trans hi')
  have he : Effect cmd i (s.record p.request d) (s.answered d) := by
    rw [State.answered, h]
    exact after_effect hb ((admitted_record ..).trans ha) fun c hr he => by simp [hr, he, byteReadFailed]
  exact ⟨he, he.inv hi hc hd (record_logLegal hl hb d)⟩

theorem Effect.seq {cmd : Word} {i : Instr} {s t : State} (h : Effect cmd i s t) :
    t.seq = .idle ∨ ∃ p k, t.seq = .busy cmd p k := by
  cases h with
  | issues | acquires | releases => exact .inr ⟨_, _, rfl⟩
  | _ => exact .inl rfl

/-- By induction on the answers: what holds while the command `i` of the word `cmd` is in progress and survives each of
its effects, holds after any number of answers. -/
theorem run_induction {cmd : Word} {i : Instr} (hi : decode cmd = .ok i) {C : State → Prop}
    (hdraws : ∀ s ds, C s → C (s.setDraws ds))
    (heffect : ∀ s t p k d, s.seq = .busy cmd p k → C s → Effect cmd i (s.record p.request d) t → C t)
    (ds : List Draw) {s : State} (hs : s.Inv) (hseq : s.seq = .idle ∨ ∃ p k, s.seq = .busy cmd p k) (hC : C s) :
    (s.run ds).Inv ∧ C (s.run ds) := by
  induction ds generalizing s with
  | nil => exact ⟨hs, hdraws s [] hC⟩
  | cons d ds ih =>
    rcases hseq with h | ⟨p, k, h⟩
    · rw [run_idle h]
      exact ⟨hs, hdraws s _ hC⟩
    · obtain ⟨he, hinv⟩ := answered_effect hs h hi d
      have hrun : s.run (d :: ds) = (s.answered d).run ds := by rw [State.run, h]
      rw [hrun]
      exact ih hinv he.seq (heffect s _ p k d h hC he)

/-! ### The step of a legal state -/

/-- What a step does: a busy block goes on, an idle block waits, or it takes a word, and runs. -/
theorem step_cases {s t : State} (h : step s = .next t) :
    (∃ cmd p k, s.seq = .busy cmd p k ∧ t = s.settle) ∨ (s.seq = .idle ∧ s.commands = [] ∧ t = s) ∨
      ∃ w ws, s.seq = .idle ∧ s.commands = w :: ws ∧ t = (beginWord w (s.setCommands ws)).settle := by
  cases hseq : s.seq with
  | busy cmd p k =>
    exact .inl ⟨cmd, p, k, rfl, Host.Outcome.next.inj (h.symm.trans (step_of_busy hseq))⟩
  | idle =>
    cases hw : s.commands with
    | nil =>
      simp only [step, hseq, State.takeCommand, hw, Host.Outcome.next.injEq] at h
      exact .inr (.inl ⟨rfl, rfl, h.symm⟩)
    | cons w ws =>
      exact .inr (.inr ⟨w, ws, rfl, rfl, Host.Outcome.next.inj (h.symm.trans (step_of_idle hseq hw))⟩)

theorem current_of_busy {s : State} {cmd : Word} {p : Wait} {k : Nat} (h : s.seq = .busy cmd p k) :
    s.current = (decode cmd).toOption := by
  simp only [State.current, h]

theorem current_of_idle {s : State} {w : Word} {ws : List Word} (h : s.seq = .idle) (hw : s.commands = w :: ws) :
    s.current = (decode w).toOption := by
  simp only [State.current, h, hw]

theorem decode_of_toOption {w : Word} {i : Instr} (h : (decode w).toOption = some i) : decode w = .ok i := by
  cases hd : decode w with
  | error e => simp only [hd, Except.toOption, reduceCtorEq] at h
  | ok j => simpa only [hd, Except.toOption, Option.some.injEq, Except.ok.injEq] using h

/-- A step that works on no command: the block waits, or an illegal word is on the port. -/
theorem step_of_current_none {s t : State} (hs : s.Inv) (hcur : s.current = none) (h : step s = .next t) :
    t = s ∨ (s.seq = .idle ∧ ∃ ws, t = (s.setCommands ws).illegal) := by
  obtain ⟨-, -, -, hq⟩ := hs
  obtain ⟨cmd, p, k, hseq, -⟩ | ⟨-, -, ht⟩ | ⟨w, ws, hseq, hw, ht⟩ := step_cases h
  · obtain ⟨i, hi, -⟩ := (seqLegal_of_busy hseq).mp hq
    rw [current_of_busy hseq, hi] at hcur
    cases hcur
  · exact .inl ht
  · rw [current_of_idle hseq hw] at hcur
    cases hd : decode w with
    | error e => exact .inr ⟨hseq, ws, by rw [ht, beginWord, hd, settle_idle (State.illegal_seq _)]⟩
    | ok i =>
      rw [hd] at hcur
      cases hcur

/-- A step that works on the command `i`: what holds of the old state and at the command's beginning, and survives each
of its effects, holds of the new state. -/
theorem step_induction {s t : State} {i : Instr} (hs : s.Inv) (hcur : s.current = some i) (h : step s = .next t)
    {C : State → Prop} (hdraws : ∀ s ds, C s → C (s.setDraws ds)) (hstart : C s)
    (hbegin : ∀ cmd ws u, Effect cmd i (s.setCommands ws) u → C u)
    (heffect : ∀ cmd u v p k d, u.seq = .busy cmd p k → C u → Effect cmd i (u.record p.request d) v → C v) :
    t.Inv ∧ C t := by
  obtain ⟨cmd, p, k, hseq, rfl⟩ | ⟨hseq, hw, -⟩ | ⟨w, ws, hseq, hw, rfl⟩ := step_cases h
  · have hi : decode cmd = .ok i := decode_of_toOption ((current_of_busy hseq).symm.trans hcur)
    exact run_induction hi hdraws (heffect cmd) s.draws hs (.inr ⟨p, k, hseq⟩) hstart
  · simp only [State.current, hseq, hw, reduceCtorEq] at hcur
  · obtain ⟨hctrl, hdiv, hlog, hq⟩ := hs
    have hd : decode w = .ok i := decode_of_toOption ((current_of_idle hseq hw).symm.trans hcur)
    have hi := decode_encode (wellFormed_of_decode hd)
    have he : Effect (encode i) i (s.setCommands ws) (beginWord w (s.setCommands ws)) := by
      rw [beginWord, hd]
      exact beginCommand_effect ((seqLegal_of_idle hseq).mp hq)
    exact run_induction hi hdraws (heffect _) _ (he.inv hi hctrl hdiv hlog) he.seq (hbegin _ ws _ he)

/-! ### The invariant (10_state.md R24, R26, R36) -/

/-- Settles O18. -/
theorem resetMeetsTheInvariant : Obligations.ResetMeetsTheInvariant := by
  unfold Obligations.ResetMeetsTheInvariant
  decide

theorem illegal_inv {s : State} (hs : s.Inv) (hidle : s.seq = .idle) (ws : List Word) :
    (s.setCommands ws).illegal.Inv := by
  obtain ⟨hctrl, hdiv, hlog, hq⟩ := hs
  exact ⟨hctrl, hdiv, hlog, (seqLegal_of_idle (State.illegal_seq _)).mpr ((seqLegal_of_idle hidle).mp hq)⟩

/-- Settles O19: a step's effects keep the registers legal and reach a legal position or response. The induction carries
the invariant itself, so it needs no further property. -/
theorem stepKeepsTheInvariant : Obligations.StepKeepsTheInvariant := by
  unfold Obligations.StepKeepsTheInvariant
  intro s t hs h
  cases hcur : s.current with
  | none =>
    obtain rfl | ⟨hidle, ws, rfl⟩ := step_of_current_none hs hcur h
    · exact hs
    · exact illegal_inv hs hidle ws
  | some i =>
    exact (step_induction hs hcur h (C := fun _ => True) (fun _ _ _ => trivial) trivial (fun _ _ _ _ => trivial)
      fun _ _ _ _ _ _ _ _ _ => trivial).1

/-- Settles O44: an idle legal state holds what STATE says. -/
theorem heldAgreesWithStateBetweenCommands : Obligations.HeldAgreesWithStateBetweenCommands := by
  unfold Obligations.HeldAgreesWithStateBetweenCommands
  refine ⟨by decide, fun s t hs h hidle => ?_⟩
  obtain ⟨-, -, -, hq⟩ := stepKeepsTheInvariant s t hs h
  have hheld := (seqLegal_of_idle hidle).mp hq
  cases hst : t.state <;> simp [hheld, hst, heldIn]

/-! ### STATE moves along the edges of 10_state.md R22 -/

/-- From `s` to `t` the command `i` has left STATE alone (and, if it goes on, has not responded), or it has ended with a
response along an edge of R22. -/
def UnmovedOrEdge (i : Instr) (s t : State) : Prop :=
  (t.state = s.state ∧ (t.seq = .idle ∨ (t.hardFail = s.hardFail ∧ t.responses = s.responses))) ∨
    (t.seq = .idle ∧ ∃ r, t.responses = s.responses ++ [r] ∧
      stateEdge s.hardFail s.state i r.status t.log t.state = true)

theorem Effect.unmovedOrEdge {cmd : Word} {i : Instr} {s t : State} (h : Effect cmd i s t) : UnmovedOrEdge i s t := by
  cases h with
  | issues | acquires | releases => exact .inl ⟨rfl, .inr ⟨rfl, rfl⟩⟩
  | opens hi hs => exact .inr ⟨rfl, _, rfl, by simp [stateEdge, hi, hs]⟩
  | configures hi hs => exact .inr ⟨rfl, _, rfl, by simp [stateEdge, hi, hs]⟩
  | configFails hi hs => exact .inr ⟨rfl, _, rfl, by simp [stateEdge, hi, hs]⟩
  | hardFails hi ho _ hf hl =>
    refine .inr ⟨rfl, _, rfl, ?_⟩
    rcases (handleOpen_iff s).mp ho with hs | hs <;> simp [stateEdge, hi, hs, hf, hl]
  | tearsDown hi m =>
    refine .inr ⟨rfl, _, rfl, ?_⟩
    cases s.state <;> simp [stateEdge, hi, State.finishTeardown]
  | _ => exact .inl ⟨rfl, .inl rfl⟩

/-- A command in progress has not moved STATE yet, so what it does next is what it does from its start. -/
theorem UnmovedOrEdge.trans {i : Instr} {s u t : State} (h : UnmovedOrEdge i s u) (hu : u.seq ≠ .idle)
    (h' : UnmovedOrEdge i u t) : UnmovedOrEdge i s t := by
  obtain ⟨hs, hidle | ⟨hf, hr⟩⟩ | ⟨hidle, -⟩ := h
  · exact absurd hidle hu
  · unfold UnmovedOrEdge at h' ⊢
    rwa [hs, hf, hr] at h'
  · exact absurd hidle hu

/-- Settles O43: STATE is written only where the command ends, and there along an edge. -/
theorem stateMovesOnlyAlongItsEdges : Obligations.StateMovesOnlyAlongItsEdges := by
  unfold Obligations.StateMovesOnlyAlongItsEdges
  intro s t hs h hne
  cases hcur : s.current with
  | none =>
    obtain rfl | ⟨-, ws, rfl⟩ := step_of_current_none hs hcur h <;> exact absurd rfl hne
  | some i =>
    have hmove : UnmovedOrEdge i s t :=
      (step_induction hs hcur h (C := UnmovedOrEdge i s) (fun _ _ hu => hu) (.inl ⟨rfl, .inr ⟨rfl, rfl⟩⟩)
        (fun _ _ _ he => he.unmovedOrEdge)
        (fun _ _ _ _ _ _ hbusy hu he => hu.trans (by rw [hbusy]; nofun) he.unmovedOrEdge)).2
    obtain ⟨heq, -⟩ | ⟨-, r, hr, hedge⟩ := hmove
    · exact absurd heq hne
    · exact ⟨i, r, rfl, hr, hedge⟩

/-! ### The writers of each register (10_state.md R23-R31) -/

/-- From `s` to `t` the command `i` changed no register but those it may write. -/
def WritesOnlyItsOwn (i : Instr) (s t : State) : Prop :=
  (t.held = s.held ∨ i = .openBus ∨ i = .teardown) ∧ (t.ctrl = s.ctrl ∨ ∃ ctl, i = .setctrl ctl) ∧
    (t.blkbuf = s.blkbuf ∨ ∃ off len, i = .rdblk off len) ∧
    (t.raw = s.raw ∨ fetches i = true ∨ ∃ ch v, i = .ldraw ch v) ∧
    ((t.q = s.q ∧ t.n = s.n ∧ t.ovf = s.ovf) ∨ fetches i = true ∨ i = .norm)

theorem WritesOnlyItsOwn.refl (i : Instr) (s : State) : WritesOnlyItsOwn i s s :=
  ⟨.inl rfl, .inl rfl, .inl rfl, .inl rfl, .inl ⟨rfl, rfl, rfl⟩⟩

theorem WritesOnlyItsOwn.trans {i : Instr} {s u t : State} (h : WritesOnlyItsOwn i s u) (h' : WritesOnlyItsOwn i u t) :
    WritesOnlyItsOwn i s t := by
  obtain ⟨held, ctrl, blk, raw, div⟩ := h
  obtain ⟨held', ctrl', blk', raw', div'⟩ := h'
  exact ⟨held'.elim (fun e => held.imp_left e.trans) .inr, ctrl'.elim (fun e => ctrl.imp_left e.trans) .inr,
    blk'.elim (fun e => blk.imp_left e.trans) .inr, raw'.elim (fun e => raw.imp_left e.trans) .inr,
    div'.elim (fun ⟨hq, hn, ho⟩ => div.imp_left fun ⟨kq, kn, ko⟩ => ⟨hq.trans kq, hn.trans kn, ho.trans ko⟩) .inr⟩

theorem Effect.writesOnlyItsOwn {cmd : Word} {i : Instr} {s t : State} (h : Effect cmd i s t) :
    WritesOnlyItsOwn i s t := by
  have same : s.q = s.q ∧ s.n = s.n ∧ s.ovf = s.ovf := ⟨rfl, rfl, rfl⟩
  cases h with
  | acquires hi | opens hi | rollsBack hi => exact ⟨.inr (.inl hi), .inl rfl, .inl rfl, .inl rfl, .inl same⟩
  | releases hi | tearsDown hi => exact ⟨.inr (.inr hi), .inl rfl, .inl rfl, .inl rfl, .inl same⟩
  | setsCtrl hi => exact ⟨.inl rfl, .inr ⟨_, hi⟩, .inl rfl, .inl rfl, .inl same⟩
  | storesBlock hi => exact ⟨.inl rfl, .inl rfl, .inr ⟨_, _, hi⟩, .inl rfl, .inl same⟩
  | loadsRaw hi => exact ⟨.inl rfl, .inl rfl, .inl rfl, .inr (.inr ⟨_, _, hi⟩), .inl same⟩
  | finishesFetch hi => exact ⟨.inl rfl, .inl rfl, .inl rfl, .inr (.inl hi), .inr (.inl hi)⟩
  | divides hi => exact ⟨.inl rfl, .inl rfl, .inl rfl, .inl rfl, .inr (.inr hi)⟩
  | _ => exact ⟨.inl rfl, .inl rfl, .inl rfl, .inl rfl, .inl same⟩

/-- Settles O47: every effect of the command writes only the command's own registers. -/
theorem eachRegisterHasItsOwnWriters : Obligations.EachRegisterHasItsOwnWriters := by
  unfold Obligations.EachRegisterHasItsOwnWriters
  intro s t hs h
  cases hcur : s.current with
  | none =>
    obtain rfl | ⟨-, ws, rfl⟩ := step_of_current_none hs hcur h <;>
      exact ⟨absurd rfl, absurd rfl, absurd rfl, absurd rfl,
        fun hne => hne.elim (absurd rfl) (Or.elim · (absurd rfl) (absurd rfl))⟩
  | some i =>
    obtain ⟨hheld, hctrl, hblk, hraw, hdiv⟩ : WritesOnlyItsOwn i s t :=
      (step_induction hs hcur h (C := WritesOnlyItsOwn i s) (fun _ _ hu => hu) (.refl i s)
        (fun _ _ _ he => he.writesOnlyItsOwn) (fun _ _ _ _ _ _ _ hu he => hu.trans he.writesOnlyItsOwn)).2
    refine ⟨fun hne => ?_, fun hne => ?_, fun hne => ?_, fun hne => ⟨i, rfl, hraw.resolve_left hne⟩,
      fun hne => ⟨i, rfl, hdiv.resolve_left fun ⟨hq, hn, ho⟩ => ?_⟩⟩
    · exact (hheld.resolve_left hne).imp (congrArg some) (congrArg some)
    · obtain ⟨ctl, hi⟩ := hctrl.resolve_left hne
      exact ⟨ctl, congrArg some hi⟩
    · obtain ⟨off, len, hi⟩ := hblk.resolve_left hne
      exact ⟨off, len, congrArg some hi⟩
    · exact hne.elim (absurd hq) (Or.elim · (absurd hn) (absurd ho))

/-! ### The port and the log (10_state.md R36-R38) -/

/-- Settles O11: a run neither reads nor writes the words on the port. -/
theorem busyBlockHoldsTheCommandOnThePort : Obligations.BusyBlockHoldsTheCommandOnThePort := by
  unfold Obligations.BusyBlockHoldsTheCommandOnThePort
  intro s cmd p k ws h
  refine ⟨s.settle, step_of_busy h, run_commands s s.draws, ?_⟩
  rw [step_of_busy (s := { s with commands := ws }) h]
  exact congrArg _ (run_withScripts s s.draws ws s.draws)

/-- A command's beginning logs nothing and takes no answer. -/
theorem beginWord_log_draws (w : Word) (s : State) :
    (beginWord w s).log = s.log ∧ (beginWord w s).draws = s.draws := by
  cases hw : decode w with
  | error e =>
    simp only [beginWord, hw]
    exact ⟨rfl, rfl⟩
  | ok i =>
    cases hp : firstWait i s with
    | some p =>
      simp only [beginWord, hw, beginCommand, hp]
      exact ⟨rfl, rfl⟩
    | none =>
      obtain ⟨-, hlog, hdraws, -⟩ := immediate_ends i s
      simp only [beginWord, hw, beginCommand, hp]
      exact ⟨hlog, hdraws⟩

/-- By induction on the answers: a run logs each answer it takes with the request it answers, the outstanding one
first. -/
theorem run_log (s : State) (ds : List Draw) : ∃ requests used, ds = used ++ (s.run ds).draws ∧
    requests.length = used.length ∧ (s.run ds).log = s.log ++ answeredBy requests used ∧
    ∀ cmd p k, s.seq = .busy cmd p k → ds ≠ [] → requests.head? = some p.request := by
  induction ds generalizing s with
  | nil => exact ⟨[], [], rfl, rfl, (List.append_nil s.log).symm, fun _ _ _ _ h => absurd rfl h⟩
  | cons d ds ih =>
    cases h : s.seq with
    | idle =>
      rw [run_idle h]
      exact ⟨[], [], rfl, rfl, (List.append_nil s.log).symm, nofun⟩
    | busy cmd p k =>
      rw [run_busy h]
      obtain ⟨requests, used, hds, hlen, hlog, -⟩ := ih ((s.record p.request d).after cmd p k d)
      refine ⟨p.request :: requests, d :: used, by rw [List.cons_append, ← hds], congrArg (· + 1) hlen, ?_, ?_⟩
      · rw [hlog, (after_cases ..).1, State.record_log, List.append_assoc]
        rfl
      · rintro _ _ _ ⟨⟩ -
        rfl

/-- Settles O15: a step is a beginning that logs nothing and a run. -/
theorem logRecordsEachAnswerInOrder : Obligations.LogRecordsEachAnswerInOrder := by
  unfold Obligations.LogRecordsEachAnswerInOrder
  intro s t h
  obtain ⟨cmd, p, k, -, rfl⟩ | ⟨hseq, -, rfl⟩ | ⟨w, ws, hseq, -, rfl⟩ := step_cases h
  · exact run_log s s.draws
  · exact ⟨[], [], rfl, rfl, (List.append_nil t.log).symm, by rw [hseq]; nofun⟩
  · obtain ⟨hlog, hdraws⟩ := beginWord_log_draws w (s.setCommands ws)
    obtain ⟨requests, used, hds, hlen, hrun, -⟩ := run_log (beginWord w (s.setCommands ws)) s.draws
    rw [State.settle, hdraws]
    exact ⟨requests, used, hds, hlen, hrun.trans (by rw [hlog]; rfl), by rw [hseq]; nofun⟩

/-! ### Register commands (10_state.md R25-R34) -/

theorem respond_of_idle {s : State} (h : s.seq = .idle) (st : Status) (v : Word) :
    s.respond st v = { s with responses := s.responses ++ [⟨st, v⟩] } := by
  rw [State.respond, ← h]

/-- Settles O39. -/
theorem normDividesWhatRawHolds : Obligations.NormDividesWhatRawHolds := by
  unfold Obligations.NormDividesWhatRawHolds
  intro s h
  rw [exec, execNorm, normWord_eq_append, respond_of_idle (s := s.divide) h]
  rfl

/-- The operand `ctl` in CTRL, bit by bit (R25). -/
theorem ctrl_getLsbD (hardFail w16 burst : Bool) :
    let c : Byte := (BitVec.ofBool burst ++ BitVec.ofBool w16 ++ BitVec.ofBool hardFail).setWidth 8
    c.getLsbD 0 = hardFail ∧ c.getLsbD 1 = w16 ∧ c.getLsbD 2 = burst := by
  revert hardFail w16 burst
  decide

/-- Settles O40. -/
theorem setctrlWritesTheControlRegister : Obligations.SetctrlWritesTheControlRegister := by
  unfold Obligations.SetctrlWritesTheControlRegister
  intro s hardFail w16 burst h ctl
  refine ⟨_, rfl, ?_, ctrl_getLsbD hardFail w16 burst⟩
  rw [respond_of_idle (s := s.setCtrl (ctl.setWidth 8)) h, setWidth_eq_zero_append 5 ctl]
  rfl

theorem exec_getr {s : State} (h : s.seq = .idle) {idx : Byte} {v : Word} (hv : s.readIndex idx = some v) :
    exec (.getr idx) s = .next { s with responses := s.responses ++ [⟨.ok, v⟩] } := by
  rw [exec, execGetr, hv, ← respond_of_idle h]

/-- Settles O41: each index names its register, zero-extended. -/
theorem getrReadsTheIndexMap : Obligations.GetrReadsTheIndexMap := by
  unfold Obligations.GetrReadsTheIndexMap
  intro s h
  have zext (k : Nat) {w : Nat} (x : BitVec w) : some (x.setWidth (k + w)) = some (0#k ++ x) :=
    congrArg some (setWidth_eq_zero_append k x)
  exact ⟨exec_getr h rfl, exec_getr h (zext 24 s.ctrl), exec_getr h (zext 16 s.raw.clear),
    exec_getr h (zext 16 s.raw.red), exec_getr h (zext 16 s.raw.green), exec_getr h (zext 16 s.raw.blue),
    exec_getr h (zext 8 s.q.red), exec_getr h (zext 8 s.q.green), exec_getr h (zext 8 s.q.blue),
    exec_getr h (congrArg some (normWord_eq_append s)),
    fun i => exec_getr h ((readIndex_blkbuf s i).trans (zext 24 s.blkbuf[i]))⟩

/-- The fields of the STAT word, lowest first (R33). -/
theorem stat_fields (st : BitVec 2) (bus addr : Bool) (c ovf : BitVec 3) :
    let w : Word := 0#21 ++ ovf ++ 0#1 ++ c ++ (BitVec.ofBool addr ++ BitVec.ofBool bus) ++ st
    w.extractLsb' 0 2 = st ∧ w.getLsbD 2 = bus ∧ w.getLsbD 3 = addr ∧ w.extractLsb' 4 3 = c ∧ w.getLsbD 7 = false ∧
      w.extractLsb' 8 3 = ovf ∧ w.extractLsb' 11 21 = 0#21 := by
  have field {n : Nat} {x y : BitVec n} (h : ∀ k < n, x.getLsbD k = y.getLsbD k) : x = y := BitVec.eq_of_getLsbD_eq h
  refine ⟨field fun k hk => ?_, ?_, ?_, field fun k hk => ?_, ?_, field fun k hk => ?_, field fun k hk => ?_⟩ <;>
    simp only [BitVec.getLsbD_extractLsb', BitVec.getLsbD_append]
  · interval_cases k <;> simp
  · simp
  · simp
  · interval_cases k <;> simp
  · simp
  · interval_cases k <;> simp
  · interval_cases k <;> simp

/-- Settles O42. -/
theorem statWordLayout : Obligations.StatWordLayout := by
  unfold Obligations.StatWordLayout
  intro s
  obtain ⟨hst, hrest⟩ := stat_fields s.state.code s.held.bus s.held.addr (s.ctrl.extractLsb' 0 3) s.ovf
  exact ⟨hst.trans (by cases s.state <;> rfl), hrest⟩

/-- A command's beginning leaves the reserved CTRL bits 0 (R26). -/
theorem beginWord_ctrlLegal (w : Word) {s : State} (hs : s.ctrlLegal) : (beginWord w s).ctrlLegal := by
  cases hw : decode w with
  | error e =>
    simp only [beginWord, hw]
    exact hs
  | ok i =>
    cases hp : firstWait i s with
    | some p =>
      simp only [beginWord, hw, beginCommand, hp]
      exact hs
    | none =>
      simp only [beginWord, hw, beginCommand, hp]
      cases i with
      | setctrl ctl => exact setWidth_reserved ctl
      | rd16 | rdblk | getr =>
        simp only [immediate]
        split <;> exact hs
      | _ => exact hs

theorem setWidth_of_reserved_zero {c : Byte} (h : c.extractLsb' 3 5 = 0#5) :
    c.setWidth 32 = 0#29 ++ c.extractLsb' 0 3 := by
  revert c
  decide

/-- Settles O45: SETCTRL writes 0 there, and nothing else writes CTRL. -/
theorem reservedControlBitsStayZero : Obligations.ReservedControlBitsStayZero := by
  unfold Obligations.ReservedControlBitsStayZero
  refine ⟨rfl, fun s t hs h => ?_, fun s hs hidle => exec_getr hidle (congrArg some (setWidth_of_reserved_zero hs))⟩
  obtain ⟨cmd, p, k, -, rfl⟩ | ⟨-, -, rfl⟩ | ⟨w, ws, -, -, rfl⟩ := step_cases h
  · rw [State.settle, run_ctrl]
    exact hs
  · exact hs
  · rw [State.settle, run_ctrl]
    exact beginWord_ctrlLegal w (s := s.setCommands ws) hs

/-- Settles O24: the one answer is stored, or reported. -/
theorem rdblkFillsTheBlockBuffer : Obligations.RdblkFillsTheBlockBuffer := by
  unfold Obligations.RdblkFillsTheBlockBuffer
  intro s off len rest hidle hst hlen hrange
  have hp : firstWait (.rdblk off len) s = some (.readBlock off len) :=
    if_pos ⟨⟨hlen, hrange⟩, (handleOpen_iff s).mpr hst⟩
  have hexec : exec (.rdblk off len) s =
      .next ((s.issue (encode (.rdblk off len)) (.readBlock off len) 1).run s.draws) := by
    rw [exec_eq, hp]
    rfl
  rw [hexec]
  refine ⟨fun b hd => ?_, fun hd => ?_⟩
  · simp only [hd, run_issue, State.after, State.afterReadBlock, run_respond]
    refine congrArg _ (State.ext rfl rfl rfl rfl rfl rfl rfl ?_ hidle.symm rfl rfl rfl rfl)
    exact storeBytes_take s.blkbuf b len.toNat
  · simp only [hd, run_issue, State.after, State.afterReadBlock, run_busErrorAt]
    exact congrArg _ (State.ext rfl rfl rfl rfl rfl rfl rfl rfl hidle.symm rfl rfl rfl rfl)

/-! ### A fetch whose transactions succeed (42_measure.md R140, R145) -/

/-- The state with more entries in its log. -/
def State.logged (s : State) (entries : List Transaction) : State := { s with log := s.log ++ entries }

theorem record_eq_logged (s : State) (r : Request) (d : Draw) : s.record r d = s.logged [⟨r, d.answer r⟩] := rfl

@[simp] theorem logged_logged (s : State) (e e' : List Transaction) : (s.logged e).logged e' = s.logged (e ++ e') := by
  simp only [State.logged, List.append_assoc]

@[simp] theorem logged_w16 (s : State) (e : List Transaction) : (s.logged e).w16 = s.w16 := rfl

/-- What follows a 16-bit value does not look at the position that waited for it. -/
theorem deliver16_issue_logged (s : State) (cmd cmd' : Word) (p : Wait) (j k : Nat) (e : List Transaction) (use : Use16)
    (v : Half) : ((s.issue cmd' p j).logged e).deliver16 cmd use v k = (s.logged e).deliver16 cmd use v k := by
  cases use <;> rfl

/-- A composed `Read16` (20_memory.md R60). -/
theorem run_lowByte_ok (s : State) (cmd : Word) (use : Use16) (off : Offset) (k : Nat) (a b : Vector Byte 32)
    (ds : List Draw) :
    (s.issue cmd (.lowByte use off) k).run (.ok a :: .ok b :: ds) =
      ((s.logged [⟨.br (commandByte off), .ok [a[0]]⟩, ⟨.br (commandByte (off + 1#5)), .ok [b[0]]⟩]).deliver16 cmd use
        (b[0] ++ a[0]) (k + 1)).run ds := by
  have second (t : State) : (t.issue cmd (.highByte use off a[0]) (k + 1)).run (.ok b :: ds) =
      ((t.logged [⟨.br (commandByte (off + 1#5)), .ok [b[0]]⟩]).deliver16 cmd use (b[0] ++ a[0]) (k + 1)).run ds := by
    rw [run_issue, ← answer_br, ← assemble16_eq_append, ← deliver16_issue_logged]
    rfl
  have first : (s.issue cmd (.lowByte use off) k).run (.ok a :: .ok b :: ds) =
      (((s.issue cmd (.lowByte use off) k).logged [⟨.br (commandByte off), .ok [a[0]]⟩]).issue cmd
        (.highByte use off a[0]) (k + 1)).run (.ok b :: ds) := by
    rw [run_issue, ← answer_br]
    rfl
  rw [first, second, logged_logged, deliver16_issue_logged]
  rfl

/-- A native `Read16` (20_memory.md R61). -/
theorem run_nativeWord_ok (s : State) (cmd : Word) (use : Use16) (off : Offset) (k : Nat) (b : Vector Byte 32)
    (ds : List Draw) :
    (s.issue cmd (.nativeWord use off) k).run (.ok b :: ds) =
      ((s.logged [⟨.wr (commandByte off), .ok [b[0], b[1]]⟩]).deliver16 cmd use (b[1] ++ b[0]) k).run ds := by
  rw [run_issue, ← answer_wr, ← assemble16_eq_append, ← deliver16_issue_logged]
  rfl

/-- A burst (20_memory.md R62). -/
theorem run_burst_ok (s : State) (cmd : Word) (rep : Report) (b : Vector Byte 32) (ds : List Draw) :
    (s.issue cmd (.burst rep) 1).run (.ok b :: ds) =
      ((s.logged [⟨.kr 0x94#8 8, .ok (b.toList.take 8)⟩]).finishFetch rep
        ⟨b[1] ++ b[0], b[3] ++ b[2], b[5] ++ b[4], b[7] ++ b[6]⟩).setDraws ds := by
  rw [run_issue, ← answer_kr b (commandByte cdataOff), ← commandByte_cdata]
  simp only [← assemble16_eq_append]
  exact run_finishFetch ((s.issue cmd (.burst rep) 1).record _ _) rep _ ds

/-- A fetch whose transactions all succeed, by each of the three strategies: eight bytes, in the channels' order. -/
theorem run_fetch_ok (s : State) (cmd : Word) (rep : Report) (bs : List (Vector Byte 32)) (rest : List Draw)
    (hlen : bs.length = (fetchPlan s.burst s.w16).length) :
    let entries := answeredBy (fetchPlan s.burst s.w16) (bs.map .ok)
    (bytesOf entries).length = 8 ∧
      (s.issue cmd (fetchWait rep s) 1).run (bs.map .ok ++ rest) =
        ((s.logged entries).finishFetch rep (snapshotOf (bytesOf entries))).setDraws rest := by
  cases hb : s.burst with
  | true =>
    simp only [hb, fetchPlan, if_true] at hlen
    match bs, hlen with
    | [b], _ =>
      simp [fetchWait, hb, fetchPlan, run_burst_ok, -run_issue, answeredBy, bytesOf, Answer.bytes, take_eight,
        snapshotOf]
  | false =>
    cases hw : s.w16 with
    | true =>
      simp only [hb, hw, fetchPlan] at hlen
      match bs, hlen with
      | [c, r, g, b], _ =>
        simp [fetchWait, hb, hw, fetchPlan, run_nativeWord_ok, -run_issue, State.deliver16, beginRead16_eq, answeredBy,
          bytesOf, Answer.bytes, snapshotOf]
    | false =>
      simp only [hb, hw, fetchPlan] at hlen
      match bs, hlen with
      | [c, c', r, r', g, g', b, b'], _ =>
        simp [fetchWait, hb, hw, fetchPlan, run_lowByte_ok, -run_issue, State.deliver16, beginRead16_eq, answeredBy,
          bytesOf, Answer.bytes, snapshotOf]

/-- Settles O31: the fetch succeeds and its response is the NORM word. -/
theorem measureRefreshesAndNormalises : Obligations.MeasureRefreshesAndNormalises := by
  unfold Obligations.MeasureRefreshesAndNormalises
  intro s used rest hidle hst hd hok plan hlen entries snapshot colour
  obtain ⟨bs, rfl⟩ := exists_map_ok used hok
  obtain ⟨hbytes, hrun⟩ :=
    run_fetch_ok s (encode .measure) .measure bs rest ((List.length_map _).symm.trans hlen)
  have hexec : exec .measure s = .next ((s.issue (encode .measure) (fetchWait .measure s) 1).run s.draws) := by
    rw [exec, execMeasure, measureAs_eq, if_pos hst]
    rfl
  refine ⟨hbytes, ?_⟩
  rw [hexec, hd, hrun]
  refine congrArg _ (State.ext rfl rfl rfl rfl rfl rfl rfl rfl hidle.symm rfl rfl rfl ?_)
  exact congrArg (fun v => s.responses ++ [Response.mk .ok v]) (normWord_eq_append _)

end Sys2Proof.Machine

namespace Sys2Proof.Machine

/-! ### The end of a command's run, as an update of the state it began in -/

/-- A command that issues a transaction runs from it through the answers there are. -/
theorem exec_of_firstWait {i : Instr} {s : State} {p : Wait} (h : firstWait i s = some p) :
    exec i s = .next ((s.issue (encode i) p 1).run s.draws) := by
  rw [exec_eq, h]
  rfl

/-- A response after some logged transactions. -/
theorem respond_logged_of_idle {s : State} (h : s.seq = .idle) (e : List Transaction) (st : Status) (v : Word)
    (ds : List Draw) :
    ((s.logged e).respond st v).setDraws ds =
      { s with draws := ds, log := s.log ++ e, responses := s.responses ++ [⟨st, v⟩] } :=
  State.ext rfl rfl rfl rfl rfl rfl rfl rfl h.symm rfl rfl rfl rfl

/-- The hard-fail policy writes STATE and ends the command with BusError (40_transactor.md R103). -/
theorem byteReadError_eq (s : State) (k : Nat) :
    s.byteReadError k = (s.setState (if s.hardFail then .failed else s.state)).raise .busError (dataOf k) := by
  unfold State.byteReadError
  split <;> rfl

/-- A failed BR after some logged transactions, under the hard-fail policy (40_transactor.md R103). -/
theorem byteReadError_logged_of_idle {s : State} (h : s.seq = .idle) (e : List Transaction) (k : Nat)
    (ds : List Draw) :
    ((s.logged e).byteReadError k).setDraws ds =
      { s with
        draws := ds
        state := if s.ctrl.getLsbD 0 then .failed else s.state
        log := s.log ++ e
        responses := s.responses ++ [⟨.busError, dataOf k⟩] } := by
  rw [byteReadError_eq]
  exact State.ext rfl rfl rfl rfl rfl rfl rfl rfl h.symm rfl rfl rfl rfl

/-- An answer that its command responds to is the run's last. -/
theorem run_of_after_respond {s t : State} {cmd : Word} {p : Wait} {k : Nat} {d : Draw} {st : Status} {v : Word}
    (h : ((s.issue cmd p k).record p.request d).after cmd p k d = t.respond st v) (ds : List Draw) :
    (s.issue cmd p k).run (d :: ds) = (t.respond st v).setDraws ds := by
  rw [run_issue, h, run_respond]

/-! ### One answer to a command of the transactor (40_transactor.md R102-R106) -/

/-- A failed BR ends its command, at whichever position it was issued. -/
theorem run_br_err {p : Wait} {c : Byte} (hp : p.request = .br c) (s : State) (cmd : Word) (k : Nat) (ds : List Draw) :
    (s.issue cmd p k).run (.err :: ds) = ((s.logged [⟨.br c, .err⟩]).byteReadError k).setDraws ds := by
  have hafter : ((s.issue cmd p k).record p.request .err).after cmd p k .err =
      (s.logged [⟨.br c, .err⟩]).byteReadError k := by
    cases p with
    | readByte | lowByte | highByte =>
      obtain rfl := Request.br.inj hp
      rw [byteReadError_eq]
      exact byteReadError_eq ..
    | _ => cases hp
  rw [run_issue, hafter, run_byteReadError]

/-- WRREG's BW: its answer decides the response alone (R104). -/
theorem run_writeByte (s : State) (cmd : Word) (off : Offset) (data : Byte) (d : Draw) (ds : List Draw) :
    (s.issue cmd (.writeByte off data) 1).run (d :: ds) =
      ((s.logged [⟨.bw (commandByte off) data, if d.isOk then .ok [] else .err⟩]).respond
        (if d.isOk then .ok else .busError) (if d.isOk then 0#32 else 1#32)).setDraws ds := by
  cases d <;> exact run_of_after_respond rfl ds

theorem run_readByte_ok (s : State) (cmd : Word) (off : Offset) (k : Nat) (b : Vector Byte 32) (ds : List Draw) :
    (s.issue cmd (.readByte off) k).run (.ok b :: ds) =
      ((s.logged [⟨.br (commandByte off), .ok [b[0]]⟩]).respond .ok (b[0].setWidth 32)).setDraws ds := by
  rw [← answer_br]
  exact run_of_after_respond rfl ds

/-- A composed `Read16` goes on to its second BR only if the first succeeds (20_memory.md R60). -/
theorem run_lowByte_first_ok (s : State) (cmd : Word) (use : Use16) (off : Offset) (k : Nat) (a : Vector Byte 32)
    (ds : List Draw) :
    (s.issue cmd (.lowByte use off) k).run (.ok a :: ds) =
      ((s.logged [⟨.br (commandByte off), .ok [a[0]]⟩]).issue cmd (.highByte use off a[0]) (k + 1)).run ds := by
  rw [run_issue, ← answer_br]
  rfl

theorem run_nativeWord_err (s : State) (cmd : Word) (use : Use16) (off : Offset) (k : Nat) (ds : List Draw) :
    (s.issue cmd (.nativeWord use off) k).run (.err :: ds) =
      ((s.logged [⟨.wr (commandByte off), .err⟩]).respond .busError (dataOf k)).setDraws ds :=
  run_of_after_respond rfl ds

theorem append_setWidth (lo hi : Byte) : (hi ++ lo : Half).setWidth 32 = 0#16 ++ hi ++ lo := by
  rw [← assemble16_eq_append, assemble16_setWidth]

/-- Where RD16 waits first (R102). -/
theorem firstWait_rd16 {s : State} {off : Offset} (hst : s.state = .busOpen ∨ s.state = .configured)
    (hoff : off.toNat ≤ 0x1E) :
    firstWait (.rd16 off) s = some (if s.w16 then .nativeWord .rd16 off else .lowByte .rd16 off) :=
  if_pos ⟨Nat.succ_lt_succ (Nat.lt_succ_of_le hoff), (handleOpen_iff s).mpr hst⟩

/-- Settles O20: the one answer decides the response. -/
theorem wrregWritesOneByte : Obligations.WrregWritesOneByte := by
  unfold Obligations.WrregWritesOneByte
  intro s off data d rest hidle hst hd
  have hp : firstWait (.wrreg off data) s = some (.writeByte off data) := if_pos ((handleOpen_iff s).mpr hst)
  rw [exec_of_firstWait hp, hd, run_writeByte, respond_logged_of_idle hidle]
  cases d <;> rfl

/-- Settles O21: a success is answered, a failure is under the hard-fail policy. -/
theorem rd8ReadsOneByteUnderTheHardFailPolicy : Obligations.Rd8ReadsOneByteUnderTheHardFailPolicy := by
  unfold Obligations.Rd8ReadsOneByteUnderTheHardFailPolicy
  intro s off rest hidle hst
  have hp : firstWait (.rd8 off) s = some (.readByte off) := if_pos ((handleOpen_iff s).mpr hst)
  rw [exec_of_firstWait hp]
  refine ⟨fun b hd => ?_, fun hd => ?_⟩
  · rw [hd, run_readByte_ok, respond_logged_of_idle hidle]
    rfl
  · rw [hd, run_br_err rfl, byteReadError_logged_of_idle hidle]
    rfl

/-- Settles O22: two BRs, each of which may fail. -/
theorem rd16ComposesTwoByteReads : Obligations.Rd16ComposesTwoByteReads := by
  unfold Obligations.Rd16ComposesTwoByteReads
  intro s off rest hidle hst hoff hw low high after
  have hp : firstWait (.rd16 off) s = some (.lowByte .rd16 off) :=
    (firstWait_rd16 hst hoff).trans (by rw [State.w16, hw]; rfl)
  rw [exec_of_firstWait hp]
  refine ⟨fun a b hd => ?_, fun a hd => ?_, fun hd => ?_⟩
  · rw [hd, run_lowByte_ok, State.deliver16, run_respond, append_setWidth, respond_logged_of_idle hidle]
    rfl
  · rw [hd, run_lowByte_first_ok, run_br_err rfl, logged_logged, byteReadError_logged_of_idle hidle]
    rfl
  · rw [hd, run_br_err rfl, byteReadError_logged_of_idle hidle]
    rfl

/-- Settles O23: one WR; its failure leaves STATE alone. -/
theorem rd16ReadsANativeWord : Obligations.Rd16ReadsANativeWord := by
  unfold Obligations.Rd16ReadsANativeWord
  intro s off rest hidle hst hoff hw
  have hp : firstWait (.rd16 off) s = some (.nativeWord .rd16 off) :=
    (firstWait_rd16 hst hoff).trans (by rw [State.w16, hw]; rfl)
  rw [exec_of_firstWait hp]
  refine ⟨fun b hd => ?_, fun hd => ?_⟩
  · rw [hd, run_nativeWord_ok, State.deliver16, run_respond, append_setWidth, respond_logged_of_idle hidle]
    rfl
  · rw [hd, run_nativeWord_err, respond_logged_of_idle hidle]
    rfl

/-! ### OPEN, one answer at a time (41_lifecycle.md R121, R122) -/

theorem run_acquire_ok (s : State) (cmd : Word) (k : Nat) (a : Vector Byte 32) (ds : List Draw) :
    (s.issue cmd .acquire k).run (.ok a :: ds) =
      (((s.logged [⟨.acq, .ok []⟩]).setHeld { s.held with bus := true }).issue cmd .claim (k + 1)).run ds := by
  rw [run_issue]
  rfl

theorem run_acquire_err (s : State) (cmd : Word) (k : Nat) (ds : List Draw) :
    (s.issue cmd .acquire k).run (.err :: ds) =
      ((s.logged [⟨.acq, .err⟩]).respond .busOpenError 1#32).setDraws ds :=
  run_of_after_respond rfl ds

theorem run_claim_ok (s : State) (cmd : Word) (k : Nat) (b : Vector Byte 32) (ds : List Draw) :
    (s.issue cmd .claim k).run (.ok b :: ds) =
      ((((s.logged [⟨.claim 0x29#7, .ok []⟩]).setHeld { s.held with addr := true }).setState .busOpen).respond .ok
        0#32).setDraws ds :=
  run_of_after_respond rfl ds

theorem run_claim_err (s : State) (cmd : Word) (k : Nat) (ds : List Draw) :
    (s.issue cmd .claim k).run (.err :: ds) =
      ((s.logged [⟨.claim 0x29#7, .err⟩]).issue cmd .rollback (k + 1)).run ds := by
  rw [run_issue]
  rfl

/-- The rollback's answer decides DATA alone. -/
theorem run_rollback (s : State) (cmd : Word) (k : Nat) (d : Draw) (ds : List Draw) :
    (s.issue cmd .rollback k).run (d :: ds) =
      (((s.logged [⟨.relb, d.answer .relb⟩]).setHeld { s.held with bus := false }).respond .busOpenError
        (if d.isOk then 2#32 else 0x102#32)).setDraws ds := by
  cases d <;> exact run_of_after_respond rfl ds

/-- A failed claim: whatever the rollback answers, the block holds nothing again. -/
theorem exec_open_claim_err {s : State} (hidle : s.seq = .idle) (hst : s.state = .uninitialized)
    (hheld : s.held = ⟨false, false⟩) (a : Vector Byte 32) (d : Draw) (rest : List Draw)
    (hd : s.draws = .ok a :: .err :: d :: rest) :
    exec .openBus s =
      .next { s with
        draws := rest
        log := s.log ++ [⟨.acq, .ok []⟩, ⟨.claim 0x29#7, .err⟩, ⟨.relb, d.answer .relb⟩]
        responses := s.responses ++ [⟨.busOpenError, if d.isOk then 2#32 else 0x102#32⟩] } := by
  have hp : firstWait .openBus s = some .acquire := if_pos hst
  rw [exec_of_firstWait hp, hd, run_acquire_ok, run_claim_err, run_rollback]
  refine congrArg _ (State.ext rfl ?_ rfl rfl rfl rfl rfl rfl hidle.symm ?_ rfl rfl rfl)
  · exact (congrArg (fun h : Held => { h with bus := false }) hheld).trans hheld.symm
  · simp [State.logged]

/-- Settles O27: OPEN is at most three transactions; only when the claim succeeds is anything held at the end. -/
theorem openAcquiresClaimsOrRollsBack : Obligations.OpenAcquiresClaimsOrRollsBack := by
  unfold Obligations.OpenAcquiresClaimsOrRollsBack
  intro s rest hidle hst hheld
  have hp : firstWait .openBus s = some .acquire := if_pos hst
  refine ⟨fun a b hd => ?_, fun hd => ?_, fun a c => exec_open_claim_err hidle hst hheld a (.ok c) rest,
    fun a => exec_open_claim_err hidle hst hheld a .err rest⟩
  · rw [exec_of_firstWait hp, hd, run_acquire_ok, run_claim_ok]
    exact congrArg _ (State.ext rfl rfl rfl rfl rfl rfl rfl rfl hidle.symm (List.append_assoc ..) rfl rfl rfl)
  · rw [exec_of_firstWait hp, hd, run_acquire_err, respond_logged_of_idle hidle]

/-! ### A fetch is whole or leaves no trace (42_measure.md R145) -/

/-- A fetch command runs as its report says. -/
theorem exists_report_of_fetches {i : Instr} (h : fetches i = true) :
    ∃ rep, ∀ s, exec i s = .next (s.measureAs i rep) := by
  cases i with
  | measure => exact ⟨.measure, fun _ => rfl⟩
  | queryr => exact ⟨.queryRed, fun _ => rfl⟩
  | queryg => exact ⟨.queryGreen, fun _ => rfl⟩
  | queryb => exact ⟨.queryBlue, fun _ => rfl⟩
  | _ => cases h

/-- `use.Fetched bytes`: the channels that a 16-bit read of a fetch comes after are those of `bytes`, low byte first. -/
inductive Use16.Fetched : Use16 → List Byte → Prop
  | clear (rep : Report) : Fetched (.clear rep) []
  | red (rep : Report) (c₀ c₁ : Byte) : Fetched (.red rep (c₁ ++ c₀)) [c₀, c₁]
  | green (rep : Report) (c₀ c₁ r₀ r₁ : Byte) : Fetched (.green rep (c₁ ++ c₀) (r₁ ++ r₀)) [c₀, c₁, r₀, r₁]
  | blue (rep : Report) (c₀ c₁ r₀ r₁ g₀ g₁ : Byte) :
      Fetched (.blue rep (c₁ ++ c₀) (r₁ ++ r₀) (g₁ ++ g₀)) [c₀, c₁, r₀, r₁, g₀, g₁]

/-- `p.Fetched bytes`: at the position `p` a fetch has read `bytes`. -/
inductive Wait.Fetched : Wait → List Byte → Prop
  | lowByte {use : Use16} {bytes : List Byte} (h : use.Fetched bytes) (off : Offset) : Fetched (.lowByte use off) bytes
  | highByte {use : Use16} {bytes : List Byte} (h : use.Fetched bytes) (off : Offset) (lo : Byte) :
      Fetched (.highByte use off lo) (bytes ++ [lo])
  | nativeWord {use : Use16} {bytes : List Byte} (h : use.Fetched bytes) (off : Offset) :
      Fetched (.nativeWord use off) bytes
  | burst (rep : Report) : Fetched (.burst rep) []

/-- `FetchStep cmd bytes s t`: a fetch that has read `bytes` goes from `s` to `t`. -/
inductive FetchStep (cmd : Word) (bytes : List Byte) (s : State) : State → Prop
  /-- the next transaction of the fetch -/
  | issues {p : Wait} (h : p.Fetched bytes) (k : Nat) : FetchStep cmd bytes s (s.issue cmd p k)
  /-- all four channels are there (R141, R145) -/
  | finishes (rep : Report) : FetchStep cmd bytes s (s.finishFetch rep (snapshotOf bytes))
  /-- a transaction failed; the hard-fail policy may have written STATE (R103) -/
  | fails (st : DriverState) (v : Word) : FetchStep cmd bytes s ((s.setState st).raise .busError v)

theorem beginRead16_fetchStep {use : Use16} {bytes : List Byte} (h : use.Fetched bytes) (s : State) (cmd : Word)
    (off : Offset) (k : Nat) : FetchStep cmd bytes s (s.beginRead16 cmd use off k) := by
  unfold State.beginRead16
  split
  · exact .issues (.nativeWord h off) k
  · exact .issues (.lowByte h off) k

theorem deliver16_fetchStep {use : Use16} {bytes : List Byte} (h : use.Fetched bytes) (s : State) (cmd : Word)
    (lo hi : Byte) (k : Nat) : FetchStep cmd (bytes ++ [lo, hi]) s (s.deliver16 cmd use (assemble16 lo hi) k) := by
  rw [assemble16_eq_append]
  cases h with
  | clear rep => exact beginRead16_fetchStep (.red rep ..) ..
  | red rep => exact beginRead16_fetchStep (.green rep ..) ..
  | green rep => exact beginRead16_fetchStep (.blue rep ..) ..
  | blue rep => exact .finishes rep

/-- An answer to a fetch adds its bytes to those read. -/
theorem after_fetchStep {p : Wait} {bytes : List Byte} (h : p.Fetched bytes) (s : State) (cmd : Word) (k : Nat)
    (d : Draw) : FetchStep cmd (bytes ++ (d.answer p.request).bytes) s (s.after cmd p k d) := by
  cases d with
  | err =>
    have failed : FetchStep cmd (bytes ++ []) s (s.byteReadError k) := by
      rw [byteReadError_eq]
      exact .fails _ _
    cases h with
    | lowByte | highByte => exact failed
    | nativeWord | burst => exact .fails s.state _
  | ok b =>
    cases h with
    | lowByte h off =>
      rw [Wait.request, answer_br]
      exact .issues (.highByte h off b[0]) _
    | highByte h off lo =>
      rw [Wait.request, answer_br, List.append_assoc]
      exact deliver16_fetchStep h ..
    | nativeWord h off =>
      rw [Wait.request, answer_wr]
      exact deliver16_fetchStep h ..
    | burst rep =>
      rw [Wait.request, answer_kr, take_eight]
      simp only [State.after, State.afterBurst, assemble16_eq_append]
      exact .finishes rep

theorem fetchWait_fetched (rep : Report) (s : State) : (fetchWait rep s).Fetched [] := by
  unfold fetchWait
  split
  · exact .burst rep
  · split
    · exact .nativeWord (.clear rep) _
    · exact .lowByte (.clear rep) _

/-- The block has answered OK since `s`. -/
def AnsweredOk (s t : State) : Prop := ∃ data, t.responses = s.responses ++ [⟨.ok, data⟩]

/-- From `s`, where a fetch had read `bytes`, to `t` it has ended OK with the snapshot of all the bytes it read, or it has
not answered OK and left the snapshot and the results alone. -/
def WholeOrUntouched (bytes : List Byte) (s t : State) : Prop :=
  (AnsweredOk s t ∧ t.q = t.raw.quotients ∧ t.n = t.q.saturated ∧ t.ovf = t.q.flags ∧
      ∃ entries, t.log = s.log ++ entries ∧ t.raw = snapshotOf (bytes ++ bytesOf entries)) ∨
    (¬ AnsweredOk s t ∧ t.raw = s.raw ∧ t.q = s.q ∧ t.n = s.n ∧ t.ovf = s.ovf)

theorem not_answeredOk_of_responses_eq {s t : State} (h : t.responses = s.responses) : ¬ AnsweredOk s t := by
  rintro ⟨data, hr⟩
  simp [h] at hr

theorem not_answeredOk_of_error {s t : State} {st : Status} {v : Word} (hst : st ≠ .ok)
    (h : t.responses = s.responses ++ [⟨st, v⟩]) : ¬ AnsweredOk s t := by
  rintro ⟨data, hr⟩
  simp [h, hst] at hr

/-- What holds from the next answer on holds from before it, its bytes counted. -/
theorem WholeOrUntouched.of_record {bytes : List Byte} {s t : State} {r : Request} {d : Draw}
    (h : WholeOrUntouched (bytes ++ (d.answer r).bytes) (s.record r d) t) : WholeOrUntouched bytes s t := by
  refine h.imp (fun ⟨hok, hq, hn, hovf, entries, hlog, hraw⟩ => ?_) id
  refine ⟨hok, hq, hn, hovf, ⟨r, d.answer r⟩ :: entries, ?_, ?_⟩
  · rw [hlog, State.record_log, List.append_assoc, List.singleton_append]
  · rw [hraw, List.append_assoc]
    rfl

/-- By induction on the answers: only the last answer of a fetch, when it is a success, writes the snapshot and the
results, and then all of them. -/
theorem run_wholeOrUntouched {s : State} {cmd : Word} {p : Wait} {k : Nat} {bytes : List Byte} (hp : p.Fetched bytes)
    (ds : List Draw) : WholeOrUntouched bytes s ((s.issue cmd p k).run ds) := by
  induction ds generalizing s p k bytes with
  | nil => exact .inr ⟨not_answeredOk_of_responses_eq rfl, rfl, rfl, rfl, rfl⟩
  | cons d ds ih =>
    rw [run_issue]
    refine WholeOrUntouched.of_record (r := p.request) (d := d) ?_
    have hstep := after_fetchStep hp ((s.issue cmd p k).record p.request d) cmd k d
    generalize ((s.issue cmd p k).record p.request d).after cmd p k d = u at hstep ⊢
    cases hstep with
    | issues h k' => exact ih (s := (s.issue cmd p k).record p.request d) h
    | finishes rep =>
      rw [run_finishFetch]
      exact .inl ⟨⟨_, rfl⟩, rfl, rfl, rfl, [], (List.append_nil _).symm, congrArg snapshotOf (List.append_nil _).symm⟩
    | fails st v =>
      rw [run_raise]
      exact .inr ⟨not_answeredOk_of_error (by decide) rfl, rfl, rfl, rfl, rfl⟩

theorem measureAs_wholeOrUntouched (s : State) (i : Instr) (rep : Report) :
    WholeOrUntouched [] s (s.measureAs i rep) := by
  rw [measureAs_eq]
  split
  · exact run_wholeOrUntouched (fetchWait_fetched rep s) s.draws
  · exact .inr ⟨not_answeredOk_of_error (by decide) rfl, rfl, rfl, rfl, rfl⟩

/-- Settles O34: a fetch writes RAW, Q, N and OVF together, where it ends OK, and nowhere else. -/
theorem snapshotIsWrittenWholeOrNotAtAll : Obligations.SnapshotIsWrittenWholeOrNotAtAll := by
  unfold Obligations.SnapshotIsWrittenWholeOrNotAtAll
  intro s t i _ hi h
  obtain ⟨rep, hexec⟩ := exists_report_of_fetches hi
  obtain rfl : s.measureAs i rep = t := Host.Outcome.next.inj ((hexec s).symm.trans h)
  exact (measureAs_wholeOrUntouched s i rep).imp_right fun ⟨hok, hrest⟩ => ⟨not_exists.mp hok, hrest⟩

/-! ### No command in progress reads the stored values (20_memory.md R72; 42_measure.md R146) -/

/-- The state with RAW, Q, N, OVF and BLKBUF forgotten. -/
def State.forgetStored (s : State) : State :=
  { s with
    raw := State.reset.raw
    q := State.reset.q
    n := State.reset.n
    ovf := State.reset.ovf
    blkbuf := State.reset.blkbuf }

/-- Blocks that differ in the forgotten values alone agree on what transport and host see of them, and on STATE. -/
theorem fields_of_forgetStored_eq {t t' : State} (h : t'.forgetStored = t.forgetStored) :
    t'.log = t.log ∧ t'.state = t.state ∧ t'.seq = t.seq ∧ t'.draws = t.draws ∧ t'.responses = t.responses := by
  simp only [State.forgetStored, State.mk.injEq] at h
  obtain ⟨hstate, -, -, -, -, -, -, -, hseq, hlog, -, hdraws, hresponses⟩ := h
  exact ⟨hlog, hstate, hseq, hdraws, hresponses⟩

theorem beginRead16_forgetStored (s : State) (cmd : Word) (u : Use16) (o : Offset) (k : Nat) :
    (s.forgetStored.beginRead16 cmd u o k).forgetStored = (s.beginRead16 cmd u o k).forgetStored := by
  rw [beginRead16_eq, beginRead16_eq]
  rfl

theorem byteReadError_forgetStored (s : State) (k : Nat) :
    (s.forgetStored.byteReadError k).forgetStored = (s.byteReadError k).forgetStored := by
  rw [byteReadError_eq, byteReadError_eq]
  rfl

theorem teardownBus_forgetStored (s : State) (cmd m : Word) (k : Nat) :
    (s.forgetStored.teardownBus cmd m k).forgetStored = (s.teardownBus cmd m k).forgetStored := by
  have hbus : s.forgetStored.held.bus = s.held.bus := rfl
  simp only [State.teardownBus, hbus]
  split <;> rfl

/-- A fetch answers what it has just divided. -/
theorem finishFetch_forgetStored (s : State) (rep : Report) (r : RawChannels) :
    (s.forgetStored.finishFetch rep r).forgetStored = (s.finishFetch rep r).forgetStored := by
  cases rep <;> rfl

theorem deliver16_forgetStored (s : State) (cmd : Word) (u : Use16) (v : Half) (k : Nat) :
    (s.forgetStored.deliver16 cmd u v k).forgetStored = (s.deliver16 cmd u v k).forgetStored := by
  cases u with
  | rd16 => rfl
  | blue => exact finishFetch_forgetStored ..
  | clear | red | green => exact beginRead16_forgetStored ..

/-- What follows an answer reads no stored value, at any position. -/
theorem after_forgetStored (s : State) (cmd : Word) (p : Wait) (k : Nat) (d : Draw) :
    (s.forgetStored.after cmd p k d).forgetStored = (s.after cmd p k d).forgetStored := by
  cases p with
  | readByte | lowByte =>
    cases d with
    | err => exact byteReadError_forgetStored ..
    | ok b => rfl
  | highByte =>
    cases d with
    | err => exact byteReadError_forgetStored ..
    | ok b => exact deliver16_forgetStored ..
  | nativeWord =>
    cases d with
    | err => rfl
    | ok b => exact deliver16_forgetStored ..
  | burst =>
    cases d with
    | err => rfl
    | ok b => exact finishFetch_forgetStored ..
  | configWrite c =>
    cases d with
    | err => rfl
    | ok b => cases c <;> rfl
  | releaseAddr =>
    cases d <;> exact teardownBus_forgetStored (s.setHeld { s.held with addr := false }) ..
  | _ => cases d <;> rfl

/-- By induction on the answers: blocks that differ in stored values alone stay so. -/
theorem run_forgetStored_congr {s s' : State} (h : s'.forgetStored = s.forgetStored) (ds : List Draw) :
    (s'.run ds).forgetStored = (s.run ds).forgetStored := by
  induction ds generalizing s s' with
  | nil => exact congrArg (State.setDraws · []) h
  | cons d ds ih =>
    obtain ⟨-, -, hseq, -⟩ := fields_of_forgetStored_eq h
    cases hs : s.seq with
    | idle =>
      rw [run_idle hs, run_idle (hseq.trans hs)]
      exact congrArg (State.setDraws · (d :: ds)) h
    | busy cmd p k =>
      have hrecord : (s'.record p.request d).forgetStored = (s.record p.request d).forgetStored :=
        congrArg (State.record · p.request d) h
      rw [run_busy hs, run_busy (hseq.trans hs)]
      refine ih ?_
      rw [← after_forgetStored, hrecord, after_forgetStored]

theorem measureAs_forgetStored (s : State) (i : Instr) (rep : Report) :
    (s.forgetStored.measureAs i rep).forgetStored = (s.measureAs i rep).forgetStored := by
  have hstate : s.forgetStored.state = s.state := rfl
  simp only [measureAs_eq, hstate]
  split
  · exact run_forgetStored_congr (s := s.issue (encode i) (fetchWait rep s) 1)
      (s' := s.forgetStored.issue (encode i) (fetchWait rep s) 1) rfl s.draws
  · rfl

/-- Settles O46: the runs differ in stored values alone, and a fetch that answers OK takes RAW, Q, N and OVF from the
bytes it logged. -/
theorem fetchesNeverUseStoredValues : Obligations.FetchesNeverUseStoredValues := by
  unfold Obligations.FetchesNeverUseStoredValues
  intro s t t' i raw q n ovf blkbuf hidle hi h h'
  have whole := snapshotIsWrittenWholeOrNotAtAll s t i hidle hi h
  have whole' := snapshotIsWrittenWholeOrNotAtAll { s with raw, q, n, ovf, blkbuf } t' i hidle hi h'
  obtain ⟨rep, hexec⟩ := exists_report_of_fetches hi
  have forgotten : t'.forgetStored = t.forgetStored := by
    obtain rfl := Host.Outcome.next.inj ((hexec _).symm.trans h)
    obtain rfl := Host.Outcome.next.inj ((hexec _).symm.trans h')
    exact (measureAs_forgetStored ..).symm.trans (measureAs_forgetStored s i rep)
  obtain ⟨hlog, hstate, hseq, hdraws, hresponses⟩ := fields_of_forgetStored_eq forgotten
  refine ⟨hlog, hstate, hseq, hdraws, hresponses, fun ⟨data, hok⟩ => ?_⟩
  obtain ⟨-, hq, hn, hovf, entries, hentries, hraw⟩ := whole.resolve_right fun ⟨hno, _⟩ => hno data hok
  obtain ⟨-, hq', hn', hovf', entries', hentries', hraw'⟩ :=
    whole'.resolve_right fun ⟨hno, _⟩ => hno data (hresponses.trans hok)
  obtain rfl : entries' = entries := List.append_cancel_left (hentries'.symm.trans (hlog.trans hentries))
  have hraws : t'.raw = t.raw := hraw'.trans hraw.symm
  have hqs : t'.q = t.q := by rw [hq', hraws, hq]
  exact ⟨hraws, hqs, by rw [hn', hqs, hn], by rw [hovf', hqs, hovf]⟩

end Sys2Proof.Machine

namespace Sys2Proof

/-! ### Commands, words and rows of the opcode map are each other's (30_encoding.md R82-R87)

A row's words are the encodings of its commands: `encode_matches_row` gives each command's word a row, and
`encode_operands` gives each word of a row its command. -/

theorem exists_row_covers_encode (i : Instr) : ∃ r ∈ rows, r.covers (encode i) = true ∧ r.operands (encode i) = i := by
  obtain ⟨r, hr, hi, hbits⟩ := encode_matches_row i
  exact ⟨r, hr, beq_iff_eq.mpr (BitVec.eq_of_getLsbD_eq fun k hk => by rw [BitVec.getLsbD_and, hbits k hk]), hi⟩

/-- A property of the opcode map, row by row. -/
theorem forall_rows {p : Row → Prop} : (∀ r ∈ rows, p r) ↔
    ((p rows[0] ∧ p rows[1] ∧ p rows[2] ∧ p rows[3]) ∧ (p rows[4] ∧ p rows[5] ∧ p rows[6] ∧ p rows[7]) ∧
      (p rows[8] ∧ p rows[9] ∧ p rows[10] ∧ p rows[11]) ∧ p rows[12] ∧ p rows[13] ∧ p rows[14] ∧ p rows[15]) := by
  simp [rows, transactorRows, lifecycleRows, measureRows, registerRows, and_assoc]

/-- A row's commands have the row's OP. -/
theorem opcode_operands {r : Row} (hr : r ∈ rows) (w : Word) : (r.operands w).opcode = opField r.value := by
  revert r
  rw [forall_rows]
  exact ⟨⟨rfl, rfl, rfl, rfl⟩, ⟨rfl, rfl, rfl, rfl⟩, ⟨rfl, rfl, rfl, rfl⟩, rfl, rfl, rfl, rfl⟩

theorem opField_encode (i : Instr) : opField (encode i) = i.opcode := by
  obtain ⟨r, hr, hc, hi⟩ := exists_row_covers_encode i
  rw [covers_opField hr hc, ← opcode_operands hr (encode i), hi]

/-- Equal fields are equal bits. -/
theorem getLsbD_eq_of_field {v w : Word} {lo n : Nat} (h : v.extractLsb' lo n = w.extractLsb' lo n) {k : Nat}
    (hk : lo ≤ k ∧ k < lo + n) : v.getLsbD k = w.getLsbD k := by
  have hb := congrArg (BitVec.getLsbD · (k - lo)) h
  have hin : k - lo < n := by omega
  simpa [BitVec.getLsbD_extractLsb', hin, hk.1] using hb

theorem channelOf_injective {a b : BitVec 2} (h : channelOf a = channelOf b) : a = b := by
  revert a b
  decide

/-- A row's operands read every bit that its mask leaves free (R87). -/
theorem getLsbD_eq_of_operands_eq {r : Row} (hr : r ∈ rows) {v w : Word} (h : r.operands v = r.operands w) {k : Nat}
    (hk : k < 32) (hfree : r.mask.getLsbD k = false) : v.getLsbD k = w.getLsbD k := by
  have full {x y : Word} (h : (0xFFFFFFFF#32).getLsbD k = false) : x.getLsbD k = y.getLsbD k := by
    rw [(by decide : ∀ j < 32, (0xFFFFFFFF#32).getLsbD j = true) k hk] at h
    cases h
  revert r
  rw [forall_rows]
  refine ⟨⟨fun h hf => ?wrreg, fun h hf => ?rd8, fun h hf => ?rd16, fun h hf => ?rdblk⟩,
    ⟨fun _ => full, fun h hf => ?config, fun _ => full, fun _ => full⟩,
    ⟨fun _ => full, fun _ => full, fun _ => full, fun _ => full⟩,
    fun h hf => ?ldraw, fun _ => full, fun h hf => ?setctrl, fun h hf => ?getr⟩
  case wrreg | rdblk =>
    injection h with hoff hlow
    rcases (by decide : ∀ j < 32, (0xFFE0FF00#32).getLsbD j = false → (16 ≤ j ∧ j < 21) ∨ j < 8) k hk hf with h | h
    · exact getLsbD_eq_of_field hoff h
    · exact getLsbD_eq_of_field hlow ⟨Nat.zero_le k, h⟩
  case rd8 | rd16 =>
    injection h with hoff
    exact getLsbD_eq_of_field hoff
      ((by decide : ∀ j < 32, (0xFFE0FFFF#32).getLsbD j = false → 16 ≤ j ∧ j < 21) k hk hf)
  case config =>
    injection h with hmid hlow
    rcases (by decide : ∀ j < 32, (0xFFFF0000#32).getLsbD j = false → (8 ≤ j ∧ j < 16) ∨ j < 8) k hk hf with h | h
    · exact getLsbD_eq_of_field hmid h
    · exact getLsbD_eq_of_field hlow ⟨Nat.zero_le k, h⟩
  case ldraw =>
    injection h with hch hvalue
    rcases (by decide : ∀ j < 32, (0xFFFC0000#32).getLsbD j = false → (16 ≤ j ∧ j < 18) ∨ j < 16) k hk hf with h | h
    · exact getLsbD_eq_of_field (channelOf_injective hch) h
    · exact getLsbD_eq_of_field hvalue ⟨Nat.zero_le k, h⟩
  case setctrl =>
    injection h with hctl
    exact getLsbD_eq_of_field hctl
      ((by decide : ∀ j < 32, (0xFFFFFFF8#32).getLsbD j = false → 0 ≤ j ∧ j < 3) k hk hf)
  case getr =>
    injection h with hidx
    exact getLsbD_eq_of_field hidx
      ((by decide : ∀ j < 32, (0xFF00FFFF#32).getLsbD j = false → 16 ≤ j ∧ j < 24) k hk hf)

/-- A row's words are told apart by their operands: the mask fixes the other bits (R84). -/
theorem eq_of_operands_eq {r : Row} (hr : r ∈ rows) {v w : Word} (hv : r.covers v = true) (hw : r.covers w = true)
    (h : r.operands v = r.operands w) : v = w := by
  have hmasked : v &&& r.mask = w &&& r.mask := (beq_iff_eq.mp hv).trans (beq_iff_eq.mp hw).symm
  refine BitVec.eq_of_getLsbD_eq fun k hk => ?_
  cases hm : r.mask.getLsbD k with
  | false => exact getLsbD_eq_of_operands_eq hr h hk hm
  | true => simpa [hm] using congrArg (BitVec.getLsbD · k) hmasked

/-- A word of a row is the encoding of the command the row makes of it. -/
theorem encode_operands {r : Row} (hr : r ∈ rows) {w : Word} (hc : r.covers w = true) : encode (r.operands w) = w := by
  obtain ⟨r', hr', hc', hi⟩ := exists_row_covers_encode (r.operands w)
  obtain rfl : r' = r := row_eq_of_opField_eq hr' hr <| by
    rw [← opcode_operands hr' (encode (r.operands w)), hi, opcode_operands hr]
  exact eq_of_operands_eq hr hc' hc hi

theorem decode_of_covers {r : Row} (hr : r ∈ rows) {w : Word} (hc : r.covers w = true) :
    decode w = if (r.operands w).wellFormed then .ok (r.operands w) else .error .operandRange := by
  simp only [decode, find_of_covers hr hc]

theorem decode_of_not_covers {w : Word} (h : ∀ r ∈ rows, ¬ r.covers w = true) : ∃ e, decode w = .error e := by
  simp only [decode, List.find?_eq_none.mpr h]
  split <;> exact ⟨_, rfl⟩

theorem exists_row_of_decode {w : Word} {i : Instr} (h : decode w = .ok i) :
    ∃ r ∈ rows, r.covers w = true ∧ r.operands w = i := by
  by_cases hc : ∃ r ∈ rows, r.covers w = true
  · obtain ⟨r, hr, hc⟩ := hc
    rw [decode_of_covers hr hc] at h
    split at h <;> cases h
    exact ⟨r, hr, hc, rfl⟩
  · obtain ⟨e, he⟩ := decode_of_not_covers fun r hr hcov => hc ⟨r, hr, hcov⟩
    rw [he] at h
    cases h

/-- Settles O2: a command's word is covered by its row, which reads the operands back. -/
theorem decodeOfEncodeIsTheCommand : Obligations.DecodeOfEncodeIsTheCommand := by
  unfold Obligations.DecodeOfEncodeIsTheCommand
  exact fun _ h => decode_encode h

/-- Settles O3: a word that decodes is covered by a row, and the row has no other word with these operands. -/
theorem encodeOfDecodeIsTheWord : Obligations.EncodeOfDecodeIsTheWord := by
  unfold Obligations.EncodeOfDecodeIsTheWord
  intro w i h
  obtain ⟨r, hr, hc, rfl⟩ := exists_row_of_decode h
  exact ⟨encode_operands hr hc, wellFormed_of_decode h⟩

/-- Settles O4: two rows that cover one word have its OP, and the sixteen OPs differ. -/
theorem opcodeRowsNeverOverlap : Obligations.OpcodeRowsNeverOverlap := by
  unfold Obligations.OpcodeRowsNeverOverlap
  refine ⟨rfl, ?_⟩
  have hop : rows.Pairwise fun a b => opField a.value ≠ opField b.value := by decide
  exact hop.imp_of_mem fun ha hb hne w ⟨hca, hcb⟩ => hne ((covers_opField ha hca).symm.trans (covers_opField hb hcb))

/-- Settles O1: closed words, each read by the decoder. -/
theorem specWordsDecode : Obligations.SpecWordsDecode := by
  unfold Obligations.SpecWordsDecode
  decide

end Sys2Proof

namespace Sys2Proof

/-! ### The words of illegal operands and of reserved OP values (30_encoding.md R85, R86) -/

/-- The operand checks of R85 fail for the fields of a word. -/
def operandsIllegal (w : Word) : Prop :=
  (opField w = 0x03#8 ∧ offField w = 0x1F#5) ∨
  (opField w = 0x04#8 ∧ ((lowField w).toNat = 0 ∨ 0x20 < (offField w).toNat + (lowField w).toNat)) ∨
  (opField w = 0x41#8 ∧ ¬ indexDefined (idxField w))

theorem pairInRange_iff (off : Offset) : pairInRange off ↔ off ≠ 0x1F#5 := by
  revert off
  decide

theorem blockInRange_iff (off : Offset) (len : Byte) :
    blockInRange off len ↔ ¬ (len.toNat = 0 ∨ 0x20 < off.toNat + len.toNat) := by
  unfold blockInRange Config.regSpace
  omega

/-- A command is ill-formed exactly when its word's fields fail the checks. -/
theorem operandsIllegal_encode_iff (i : Instr) : operandsIllegal (encode i) ↔ i.wellFormed = false := by
  unfold operandsIllegal
  rw [opField_encode]
  cases i with
  | rd16 off => simp [Instr.opcode, Instr.wellFormed, encode_rd16_field, pairInRange_iff]
  | rdblk off len =>
    obtain ⟨hoff, hlen⟩ : offField (encode (.rdblk off len)) = off ∧ lowField (encode (.rdblk off len)) = len :=
      offset_byte_fields 0x04#8 off len
    simp [Instr.opcode, Instr.wellFormed, hoff, hlen, blockInRange_iff, or_iff_not_imp_left]
  | getr idx => simp [Instr.opcode, Instr.wellFormed, encode_getr_field]
  | _ => simp [Instr.opcode, Instr.wellFormed]

/-- The words that decode to no command: those of no row, and those of a row whose operands fail the checks (R84, R85). -/
theorem exists_decode_error_iff (w : Word) :
    (∃ e, decode w = .error e) ↔ (∀ r ∈ rows, w &&& r.mask ≠ r.value) ∨ operandsIllegal w := by
  by_cases hrow : ∃ r ∈ rows, r.covers w = true
  · obtain ⟨r, hr, hc⟩ := hrow
    have hmatch : ¬ ∀ r ∈ rows, w &&& r.mask ≠ r.value := fun h => h r hr (beq_iff_eq.mp hc)
    have hoperands := operandsIllegal_encode_iff (r.operands w)
    rw [encode_operands hr hc] at hoperands
    rw [or_iff_right hmatch, hoperands, decode_of_covers hr hc]
    cases (r.operands w).wellFormed <;> simp
  · have hnone (r : Row) (hr : r ∈ rows) : ¬ r.covers w = true := fun hc => hrow ⟨r, hr, hc⟩
    exact iff_of_true (decode_of_not_covers hnone) (.inl fun r hr h => hnone r hr (beq_iff_eq.mpr h))

/-- The OP values of the commands are those of the opcode map (R83). -/
theorem exists_opcode_iff (op : Byte) : (∃ i : Instr, i.opcode = op) ↔ op ∈ rows.map fun r => opField r.value := by
  rw [List.mem_map]
  constructor
  · rintro ⟨i, rfl⟩
    obtain ⟨r, hr, -, hi⟩ := exists_row_covers_encode i
    exact ⟨r, hr, by rw [← opcode_operands hr (encode i), hi]⟩
  · rintro ⟨r, hr, rfl⟩
    exact ⟨r.operands 0#32, opcode_operands hr _⟩

theorem decode_of_reserved_opcode {w : Word} (h : ∀ i : Instr, i.opcode ≠ opField w) : ∃ e, decode w = .error e :=
  decode_of_not_covers fun r hr hc => h (r.operands w) ((opcode_operands hr w).trans (covers_opField hr hc).symm)

end Sys2Proof

namespace Sys2Proof.Machine

/-! ### A step by the word on the port -/

theorem illegal_of_idle {s : State} (h : s.seq = .idle) :
    s.illegal = { s with responses := s.responses ++ [⟨.illegalCommand, 0#32⟩] } :=
  respond_of_idle h _ _

theorem step_of_decode_error {s : State} {w : Word} {ws : List Word} (hidle : s.seq = .idle) (hw : s.commands = w :: ws)
    {e : Illegal} (h : decode w = .error e) :
    step s = .next { s with commands := ws, responses := s.responses ++ [⟨.illegalCommand, 0#32⟩] } := by
  simp only [step_of_idle hidle hw, beginWord, h, settle_idle (State.illegal_seq _)]
  exact congrArg _ (illegal_of_idle (s := s.setCommands ws) hidle)

/-- Settles O9: the beginning of the word's command, settled, is the command's meaning. -/
theorem stepRunsTheDecodedCommand : Obligations.StepRunsTheDecodedCommand := by
  unfold Obligations.StepRunsTheDecodedCommand
  intro s w ws i hidle hw hi
  simp only [step_of_idle hidle hw, beginWord, hi, ← exec_eq_settle]
  rfl

/-- Settles O5: a word decodes exactly when none of the statement's clauses holds. -/
theorem illegalWordsAndNoOthersAreIllegalCommand : Obligations.IllegalWordsAndNoOthersAreIllegalCommand := by
  unfold Obligations.IllegalWordsAndNoOthersAreIllegalCommand
  intro s w ws hidle hw illegal
  have hiff : (∃ e, decode w = .error e) ↔ illegal := exists_decode_error_iff w
  cases h : decode w with
  | error e => exact ⟨fun _ => step_of_decode_error hidle hw h, fun hlegal => absurd (hiff.mp ⟨e, h⟩) hlegal⟩
  | ok i =>
    refine ⟨fun hill => ?_, fun _ => ⟨i, rfl, stepRunsTheDecodedCommand s w ws i hidle hw h⟩⟩
    obtain ⟨e, he⟩ := hiff.mpr hill
    cases h.symm.trans he

/-- Settles O6: the listed OP values are those outside the opcode map, and a row that covers a word has its OP. -/
theorem reservedOpcodesAreIllegalCommand : Obligations.ReservedOpcodesAreIllegalCommand := by
  unfold Obligations.ReservedOpcodesAreIllegalCommand
  intro reserved
  have hreserved (op : Byte) : reserved op.toNat ↔ ∀ i : Instr, i.opcode ≠ op := by
    rw [← not_exists, exists_opcode_iff]
    revert op
    decide
  refine ⟨hreserved, .inl rfl, fun s w ws hidle hw h => ?_⟩
  obtain ⟨e, he⟩ := decode_of_reserved_opcode ((hreserved (opField w)).mp h)
  exact step_of_decode_error hidle hw he

/-- The commands with an operand check make it before anything else (R85, R208). -/
theorem exec_of_not_wellFormed {i : Instr} (h : i.wellFormed = false) (s : State) : exec i s = .next s.illegal := by
  cases i with
  | rd16 off => rw [exec, execRd16, if_pos (of_decide_eq_false h)]
  | rdblk off len => rw [exec, execRdblk, if_pos (of_decide_eq_false h)]
  | getr idx => rw [exec, execGetr, readIndex_eq_none (of_decide_eq_false h)]
  | _ => cases h

/-- Settles O7: RD16, RDBLK and GETR are the commands with a check, and each makes it first. -/
theorem illFormedOperandsAreIllegalCommand : Obligations.IllFormedOperandsAreIllegalCommand := by
  unfold Obligations.IllFormedOperandsAreIllegalCommand
  intro s i hidle h
  rw [exec_of_not_wellFormed h, illegal_of_idle hidle]

/-- Settles O8: only the words of SETATIME and SETGAIN are not literals, and their `x` is the low byte of WRREG's format. -/
theorem pseudoInstructionsHaveTheirWords : Obligations.PseudoInstructionsHaveTheirWords := by
  unfold Obligations.PseudoInstructionsHaveTheirWords
  have word (off : Offset) (high : BitVec 24) (h : 0x01#8 ++ 0#3 ++ off ++ 0#8 = high) (x : Byte) :
      encode (.wrreg off x) = high ++ x := congrArg (· ++ x) h
  exact ⟨by decide, by decide, by decide, fun x => ⟨rfl, word 0x01#5 0x010100#24 (by decide) x⟩,
    fun x => ⟨rfl, word 0x0F#5 0x010F00#24 (by decide) x⟩, by decide, by decide, by decide, by decide, by decide,
    by decide⟩

/-- LDRAW on an idle block (R165). -/
theorem exec_ldraw {s : State} (h : s.seq = .idle) (ch : Channel) (v : Half) :
    exec (.ldraw ch v) s = .next { s with raw := s.raw.set ch v, responses := s.responses ++ [⟨.ok, 0#32⟩] } :=
  congrArg _ (respond_of_idle (s := s.setRaw (s.raw.set ch v)) h .ok 0#32)

/-- Settles O38: `RawChannels.set` replaces the one channel. -/
theorem ldrawWritesOneRawRegister : Obligations.LdrawWritesOneRawRegister := by
  unfold Obligations.LdrawWritesOneRawRegister
  exact fun s v h => ⟨exec_ldraw h .clear v, exec_ldraw h .red v, exec_ldraw h .green v, exec_ldraw h .blue v⟩

end Sys2Proof.Machine

namespace Sys2Proof.Machine

/-! ### A fetch that fails (42_measure.md R140, R145; 60_exceptions.md R203) -/

/-- The transactions of a `Read16` whose transactions succeed (40_transactor.md R102). -/
def readPlan (w16 : Bool) (off : Offset) : List Request :=
  if w16 then [.wr (commandByte off)] else [.br (commandByte off), .br (commandByte (off + 1#5))]

/-- The channels that a fetch reads after the 16-bit read with the use `use` (R140). -/
def Use16.later : Use16 → List Offset
  | .rd16 => []
  | .clear _ => [rdataOff, gdataOff, bdataOff]
  | .red _ _ => [gdataOff, bdataOff]
  | .green _ _ _ => [bdataOff]
  | .blue _ _ _ _ => []

/-- `p.Ahead burst w16 plan`: a fetch of the strategy that the bits select has at the position `p` the transactions `plan`
before it, the one it waits on first. -/
inductive Wait.Ahead (burst w16 : Bool) : Wait → List Request → Prop
  | burst (hb : burst = true) (rep : Report) : Ahead burst w16 (.burst rep) [.kr (commandByte cdataOff) 8]
  | nativeWord (hb : burst = false) (hw : w16 = true) (use : Use16) (off : Offset) :
      Ahead burst w16 (.nativeWord use off) (.wr (commandByte off) :: use.later.flatMap (readPlan w16))
  | lowByte (hb : burst = false) (hw : w16 = false) (use : Use16) (off : Offset) :
      Ahead burst w16 (.lowByte use off)
        (.br (commandByte off) :: .br (commandByte (off + 1#5)) :: use.later.flatMap (readPlan w16))
  | highByte (hb : burst = false) (hw : w16 = false) (use : Use16) (off : Offset) (lo : Byte) :
      Ahead burst w16 (.highByte use off lo) (.br (commandByte (off + 1#5)) :: use.later.flatMap (readPlan w16))

theorem Wait.Ahead.request {burst w16 : Bool} {p : Wait} {r : Request} {plan : List Request}
    (h : p.Ahead burst w16 (r :: plan)) : p.request = r := by
  cases h <;> rfl

/-- Where a `Read16` of a fetch waits first. -/
theorem ahead_read16 {burst : Bool} (hb : burst = false) (w16 : Bool) (use : Use16) (off : Offset) :
    (if w16 then Wait.nativeWord use off else .lowByte use off).Ahead burst w16
      (readPlan w16 off ++ use.later.flatMap (readPlan w16)) := by
  cases w16 with
  | true => exact .nativeWord hb rfl use off
  | false => exact .lowByte hb rfl use off

/-- `Fetch()` begins with its whole plan ahead (R140). -/
theorem fetchWait_ahead (rep : Report) (s : State) :
    (fetchWait rep s).Ahead s.burst s.w16 (fetchPlan s.burst s.w16) := by
  unfold fetchWait
  split
  next hb =>
    simp only [hb, fetchPlan, ← commandByte_cdata, if_true]
    exact .burst rfl rep
  next hb =>
    have hplan : fetchPlan s.burst s.w16 =
        readPlan s.w16 cdataOff ++ (Use16.clear rep).later.flatMap (readPlan s.w16) := by
      cases hw : s.w16 <;> simp [fetchPlan, hb, readPlan, Use16.later]
    rw [hplan]
    exact ahead_read16 (Bool.eq_false_of_not_eq_true hb) s.w16 (.clear rep) cdataOff

/-- A channel that is not the last is followed by the `Read16` of the next one. -/
theorem deliver16_ahead {s : State} (hb : s.burst = false) {use : Use16}
    (hne : use.later.flatMap (readPlan s.w16) ≠ []) (cmd : Word) (v : Half) (k : Nat) :
    ∃ p, p.Ahead s.burst s.w16 (use.later.flatMap (readPlan s.w16)) ∧
      s.deliver16 cmd use v k = s.issue cmd p (k + 1) := by
  cases use with
  | rd16 | blue => exact absurd rfl hne
  | clear | red | green => exact ⟨_, ahead_read16 hb s.w16 _ _, beginRead16_eq ..⟩

/-- A success that is not the fetch's last makes it issue the next transaction of its plan. -/
theorem after_ok_ahead {s : State} {p : Wait} {r : Request} {plan : List Request}
    (h : p.Ahead s.burst s.w16 (r :: plan)) (hne : plan ≠ []) (cmd : Word) (k : Nat) (b : Vector Byte 32) :
    ∃ p', p'.Ahead s.burst s.w16 plan ∧ s.after cmd p k (.ok b) = s.issue cmd p' (k + 1) := by
  cases h with
  | burst => exact absurd rfl hne
  | nativeWord hb hw use off => exact deliver16_ahead hb hne cmd _ k
  | lowByte hb hw use off => exact ⟨_, .highByte hb hw use off b[0], rfl⟩
  | highByte hb hw use off lo => exact deliver16_ahead hb hne cmd _ k

/-- STATE after a fetch has failed: the hard-fail policy is that of byte reads alone (40_transactor.md R103). -/
def State.stateOfFailedFetch (s : State) : DriverState :=
  if s.hardFail ∧ s.w16 = false ∧ s.burst = false then .failed else s.state

/-- A failure ends the fetch, whichever transaction it is of. -/
theorem after_err_ahead {s : State} {p : Wait} {plan : List Request} (h : p.Ahead s.burst s.w16 plan) (cmd : Word)
    (k : Nat) : s.after cmd p k .err = (s.setState s.stateOfFailedFetch).raise .busError (dataOf k) := by
  have noPolicy (hstrategy : ¬ (s.w16 = false ∧ s.burst = false)) :
      s.busErrorAt k = (s.setState s.stateOfFailedFetch).raise .busError (dataOf k) := by
    rw [State.stateOfFailedFetch, if_neg fun hfail => hstrategy hfail.2]
    rfl
  have policy (hb : s.burst = false) (hw : s.w16 = false) :
      s.byteReadError k = (s.setState s.stateOfFailedFetch).raise .busError (dataOf k) := by
    rw [byteReadError_eq]
    simp only [State.stateOfFailedFetch, hb, hw, and_true]
  cases h with
  | burst hb => exact noPolicy (by simp [hb])
  | nativeWord hb hw => exact noPolicy (by simp [hw])
  | lowByte hb hw | highByte hb hw => exact policy hb hw

/-- By induction on the successes before the failure: each takes the fetch one transaction further in its plan. -/
theorem run_ahead_err {s : State} {p : Wait} {plan : List Request} (h : p.Ahead s.burst s.w16 plan) (cmd : Word)
    (k : Nat) {bs : List (Vector Byte 32)} (hlen : bs.length < plan.length) (rest : List Draw) :
    (s.issue cmd p k).run (bs.map .ok ++ .err :: rest) =
      (((s.logged (answeredBy plan (bs.map .ok ++ [.err]))).setState s.stateOfFailedFetch).raise .busError
        (dataOf (k + bs.length))).setDraws rest := by
  induction bs generalizing s p plan k with
  | nil =>
    obtain ⟨r, plan, rfl⟩ := List.exists_cons_of_length_pos hlen
    have hlog : answeredBy (r :: plan) [.err] = [⟨r, .err⟩] := by simp [answeredBy]
    rw [List.map_nil, List.nil_append, List.nil_append, hlog, run_issue, h.request,
      after_err_ahead (s := (s.issue cmd p k).record r .err) h, run_raise]
    rfl
  | cons b bs ih =>
    obtain ⟨r, plan, rfl⟩ := List.exists_cons_of_length_pos (Nat.zero_lt_of_lt hlen)
    have hlater : bs.length < plan.length := Nat.lt_of_succ_lt_succ hlen
    obtain ⟨p', h', hnext⟩ := after_ok_ahead (s := (s.issue cmd p k).record r (.ok b)) h
      (List.ne_nil_of_length_pos (Nat.zero_lt_of_lt hlater)) cmd k b
    have hrun := ih (s := s.logged [⟨r, (Draw.ok b).answer r⟩]) h' (k + 1) hlater
    rw [logged_logged, Nat.add_right_comm] at hrun
    rw [List.map_cons, List.cons_append, run_issue, h.request, hnext]
    exact hrun

/-- Settles O33: a fetch has its whole plan ahead, and the failure comes within it. -/
theorem fetchStopsAtTheFirstFailure : Obligations.FetchStopsAtTheFirstFailure := by
  unfold Obligations.FetchStopsAtTheFirstFailure
  intro s i done rest hidle hst hi hd hok plan hlen
  obtain ⟨bs, rfl⟩ := exists_map_ok done hok
  obtain ⟨rep, hexec⟩ := exists_report_of_fetches hi
  have hrun := run_ahead_err (fetchWait_ahead rep s) (encode i) 1 ((List.length_map _).symm.trans_lt hlen) rest
  rw [hexec, measureAs_eq, if_pos hst]
  refine congrArg _ (Eq.trans ?_ (hrun.trans ?_))
  · exact congrArg (s.issue (encode i) (fetchWait rep s) 1).run hd
  · rw [List.length_map, Nat.add_comm]
    exact State.ext rfl rfl rfl rfl rfl rfl rfl rfl hidle.symm rfl rfl rfl rfl

end Sys2Proof.Machine

namespace Sys2Proof.Machine

/-! ### Commands that end at once (60_exceptions.md R205, R206) -/

section Refusals
variable {s : State} {i : Instr}

/-- What R206 admits in BusOpen and Configured is what the transactor checks (40_transactor.md R101). -/
theorem handleOpen_eq_false (h : ¬ (s.state = .busOpen ∨ s.state = .configured)) : s.handleOpen = false :=
  Bool.eq_false_of_not_eq_true ((handleOpen_iff s).not.mpr h)

/-- A command that the admission table refuses with StateError makes that its response, before any transaction. -/
theorem exec_of_refusedStateError (hwf : i.wellFormed = true) (h : admission i s.state = .refusedStateError) :
    exec i s = .next (s.raise .stateError 0#32) := by
  rw [exec_eq]
  cases i with
  | wrreg | rd8 =>
    have hopen : s.handleOpen = false := handleOpen_eq_false (by simpa [admission] using h)
    simp only [firstWait, immediate, hopen, Bool.false_eq_true, if_false]
  | rd16 | rdblk =>
    have hopen : s.handleOpen = false := handleOpen_eq_false (by simpa [admission] using h)
    simp only [firstWait, immediate, hopen, Bool.false_eq_true, and_false, if_false]
    rw [if_pos (of_decide_eq_true hwf)]
  | openBus =>
    have hst : ¬ s.state = .uninitialized := by simpa [admission] using h
    simp only [firstWait, immediate, if_neg hst]
  | config | configd =>
    have hst : ¬ s.state = .busOpen := by simpa [admission] using h
    simp only [firstWait, immediate, if_neg hst]
  | measure | queryr | queryg | queryb => simp [admission, ite_eq_iff] at h
  | teardown | ldraw | norm | setctrl | getr => cases h

/-- A command that the admission table refuses with NotConfiguredError makes that its response, before any transaction. -/
theorem exec_of_refusedNotConfigured (h : admission i s.state = .refusedNotConfigured) :
    exec i s = .next (s.raise .notConfiguredError 0#32) := by
  rw [exec_eq]
  cases i with
  | measure | queryr | queryg | queryb =>
    have hst : ¬ s.state = .configured := by simpa [admission] using h
    simp only [firstWait, immediate, if_neg hst]
  | wrreg | rd8 | rd16 | rdblk | openBus | config | configd => simp [admission, ite_eq_iff] at h
  | teardown | ldraw | norm | setctrl | getr => cases h

/-- The commands but TEARDOWN that the admission table admits in Failed are those it admits everywhere: they answer OK at
once, and STATE and the log are not theirs to write. -/
theorem exec_of_admitted_in_failed (hwf : i.wellFormed = true) (hne : i ≠ .teardown)
    (h : admission i .failed = .admitted) : ∃ (u : State) (v : Word), exec i s = .next (u.respond .ok v) ∧
      u.state = s.state ∧ u.log = s.log ∧ u.responses = s.responses := by
  cases i with
  | ldraw ch v => exact ⟨s.setRaw (s.raw.set ch v), _, rfl, rfl, rfl, rfl⟩
  | norm => exact ⟨s.divide, _, rfl, rfl, rfl, rfl⟩
  | setctrl ctl => exact ⟨s.setCtrl (ctl.setWidth 8), _, rfl, rfl, rfl, rfl⟩
  | getr idx =>
    obtain ⟨v, hv⟩ := Option.isSome_iff_exists.mp ((readIndex_isSome_iff s idx).mpr (of_decide_eq_true hwf))
    exact ⟨s, v, by rw [exec, execGetr, hv], rfl, rfl, rfl⟩
  | teardown => exact absurd rfl hne
  | _ => cases h

theorem admission_of_fetches_in_failed (h : fetches i = true) : admission i .failed = .refusedNotConfigured := by
  cases i with
  | measure | queryr | queryg | queryb => rfl
  | _ => cases h

end Refusals

/-- Settles O26: in Failed a command is refused, or it is one that writes neither STATE nor the log. -/
theorem failedIsLeftOnlyByTeardown : Obligations.FailedIsLeftOnlyByTeardown := by
  unfold Obligations.FailedIsLeftOnlyByTeardown
  intro s t i _ hst hwf hne h
  have hfetches := admission_of_fetches_in_failed (i := i)
  cases hadm : admission i .failed with
  | admitted =>
    obtain ⟨u, v, hexec, hstate, hlog, hresponses⟩ := exec_of_admitted_in_failed (s := s) hwf hne hadm
    obtain rfl := Host.Outcome.next.inj (hexec.symm.trans h)
    refine ⟨hstate.trans hst, hlog, ⟨.ok, v⟩, congrArg (· ++ _) hresponses, nofun, fun hf => ?_, fun _ => rfl⟩
    cases hadm.symm.trans (hfetches hf)
  | refusedStateError =>
    obtain rfl := Host.Outcome.next.inj ((exec_of_refusedStateError hwf (hst ▸ hadm)).symm.trans h)
    refine ⟨hst, rfl, ⟨.stateError, 0#32⟩, rfl, fun _ => rfl, fun hf => ?_, nofun⟩
    cases hadm.symm.trans (hfetches hf)
  | refusedNotConfigured =>
    obtain rfl := Host.Outcome.next.inj ((exec_of_refusedNotConfigured (hst ▸ hadm)).symm.trans h)
    exact ⟨hst, rfl, ⟨.notConfiguredError, 0#32⟩, rfl, nofun, fun _ => rfl, nofun⟩

/-! ### CONFIG and CONFIGD, one answer at a time (41_lifecycle.md R123-R125) -/

section Configuration
variable (s : State) (cmd : Word) (k : CfgStep) (atime gain : Byte)

/-- The write of a configuration step (R124). -/
def CfgStep.write : Request := .bw (commandByte k.offset) (k.value atime gain)

/-- The writes from a configuration step on (R124). -/
def CfgStep.writes : List Request := (configPlan atime gain).drop (k.number - 1)

/-- A step is the last, or the next one's writes follow its own. -/
theorem CfgStep.writes_eq_cons :
    (k.next = none ∧ k.number = 4 ∧ k.writes atime gain = [k.write atime gain]) ∨
      ∃ k', k.next = some k' ∧ k'.number = k.number + 1 ∧
        k.writes atime gain = k.write atime gain :: k'.writes atime gain := by
  cases k with
  | powerOn => exact .inr ⟨.adcEnable, rfl, rfl, rfl⟩
  | adcEnable => exact .inr ⟨.integration, rfl, rfl, rfl⟩
  | integration => exact .inr ⟨.gain, rfl, rfl, rfl⟩
  | gain => exact .inl ⟨rfl, rfl, rfl⟩

theorem run_configWrite_err (n : Nat) (ds : List Draw) :
    (s.issue cmd (.configWrite k atime gain) n).run (.err :: ds) =
      (((s.logged [⟨k.write atime gain, .err⟩]).setState .failed).respond .configStepError
        (dataOf k.number)).setDraws ds :=
  run_of_after_respond rfl ds

/-- A step that succeeds is followed by the next one. -/
theorem run_configWrite_ok {k k' : CfgStep} (h : k.next = some k') (n : Nat) (b : Vector Byte 32) (ds : List Draw) :
    (s.issue cmd (.configWrite k atime gain) n).run (.ok b :: ds) =
      ((s.logged [⟨k.write atime gain, .ok []⟩]).issue cmd (.configWrite k' atime gain) (n + 1)).run ds := by
  rw [run_issue]
  simp only [State.after, State.afterConfigWrite, h]
  rfl

/-- The fourth step ends the sequence. -/
theorem run_configWrite_gain_ok (n : Nat) (b : Vector Byte 32) (ds : List Draw) :
    (s.issue cmd (.configWrite .gain atime gain) n).run (.ok b :: ds) =
      (((s.logged [⟨CfgStep.gain.write atime gain, .ok []⟩]).setState .configured).respond .ok 0#32).setDraws ds :=
  run_of_after_respond rfl ds

/-- By induction on the successes before the failure: each takes the sequence to its next step. -/
theorem run_configWrite_fails {s : State} {k : CfgStep} (n : Nat) {bs : List (Vector Byte 32)}
    (hlen : k.number + bs.length ≤ 4) (rest : List Draw) :
    (s.issue cmd (.configWrite k atime gain) n).run (bs.map .ok ++ .err :: rest) =
      (((s.logged (answeredBy (k.writes atime gain) (bs.map .ok ++ [.err]))).setState .failed).respond
        .configStepError (dataOf (k.number + bs.length))).setDraws rest := by
  induction bs generalizing s k n with
  | nil =>
    have hlog : answeredBy (k.writes atime gain) [.err] = [⟨k.write atime gain, .err⟩] := by
      obtain ⟨-, -, hw⟩ | ⟨k', -, -, hw⟩ := k.writes_eq_cons atime gain <;> simp [hw, answeredBy]
    exact (run_configWrite_err ..).trans (by rw [← hlog]; rfl)
  | cons b bs ih =>
    rw [List.length_cons] at hlen
    obtain ⟨-, hlast, -⟩ | ⟨k', hnext, hnumber, hw⟩ := k.writes_eq_cons atime gain
    · omega
    · have hrun := ih (s := s.logged [⟨k.write atime gain, .ok []⟩]) (n + 1) (k := k') (by omega)
      rw [logged_logged, hnumber, Nat.add_right_comm] at hrun
      rw [List.map_cons, List.cons_append, run_configWrite_ok s cmd atime gain hnext, hrun, hw]
      rfl

/-- The end of a configuration sequence, as an update of the state it began in. -/
theorem respond_setState_logged_of_idle {s : State} (h : s.seq = .idle) (e : List Transaction) (st : DriverState)
    (status : Status) (v : Word) (ds : List Draw) :
    (((s.logged e).setState st).respond status v).setDraws ds =
      { s with draws := ds, state := st, log := s.log ++ e, responses := s.responses ++ [⟨status, v⟩] } :=
  State.ext rfl rfl rfl rfl rfl rfl rfl rfl h.symm rfl rfl rfl rfl

end Configuration

theorem exec_config_of_run {s t : State} {atime gain : Byte} (hst : s.state = .busOpen)
    (hrun : (s.issue (encode (.config atime gain)) (.configWrite .powerOn atime gain) 1).run s.draws = t) :
    exec (.config atime gain) s = .next t := by
  rw [exec_of_firstWait (i := .config atime gain) (if_pos hst), hrun]

theorem exec_configd_of_run {s t : State} (hst : s.state = .busOpen)
    (hrun : (s.issue (encode .configd) (.configWrite .powerOn Config.defaultAtime Config.defaultGain) 1).run s.draws =
      t) : exec .configd s = .next t := by
  rw [exec_of_firstWait (i := .configd) (if_pos hst), hrun]

/-- Settles O29: the failure comes within the sequence, after successes alone; CONFIGD differs in its parameters only. -/
theorem configFailureNamesItsStep : Obligations.ConfigFailureNamesItsStep := by
  unfold Obligations.ConfigFailureNamesItsStep
  intro s atime gain done rest hidle hst hd hlen hok result
  obtain ⟨bs, rfl⟩ := exists_map_ok done hok
  rw [List.length_map] at hlen
  have hrun (cmd : Word) (at_ g : Byte) :
      (s.issue cmd (.configWrite .powerOn at_ g) 1).run s.draws = result at_ g := by
    rw [hd, run_configWrite_fails cmd at_ g 1 (k := .powerOn) (by simp only [CfgStep.number]; omega),
      respond_setState_logged_of_idle hidle, Nat.add_comm]
    simp only [result, List.length_map]
    rfl
  exact ⟨exec_config_of_run hst (hrun _ _ _), exec_configd_of_run hst (hrun _ _ _)⟩

/-- Settles O28: each success takes the sequence to its next step; CONFIGD differs in its parameters only. -/
theorem configWritesFourRegistersInOrder : Obligations.ConfigWritesFourRegistersInOrder := by
  unfold Obligations.ConfigWritesFourRegistersInOrder
  intro s atime gain a b c d rest hidle hst hd result
  have hrun (cmd : Word) (at_ g : Byte) :
      (s.issue cmd (.configWrite .powerOn at_ g) 1).run s.draws = result at_ g := by
    rw [hd, run_configWrite_ok (k' := .adcEnable) (h := rfl), run_configWrite_ok (k' := .integration) (h := rfl),
      run_configWrite_ok (k' := .gain) (h := rfl), run_configWrite_gain_ok]
    simp only [logged_logged, respond_setState_logged_of_idle hidle]
    rfl
  exact ⟨exec_config_of_run hst (hrun _ _ _), exec_configd_of_run hst (hrun _ _ _)⟩

/-! ### TEARDOWN, one answer at a time (41_lifecycle.md R127, R128) -/

section Teardown
variable (s : State) (cmd : Word) (k : Nat) (d : Draw)

/-- RELA's answer decides bit 0 of the mask, and TEARDOWN goes on. -/
theorem run_releaseAddr (ds : List Draw) :
    (s.issue cmd .releaseAddr k).run (d :: ds) =
      (((s.logged [⟨.rela, d.answer .rela⟩]).setHeld { s.held with addr := false }).teardownBus cmd
        (if d.isOk then 0#32 else 1#32) (k + 1)).run ds := by
  rw [run_issue]
  cases d <;> simp only [State.after, State.afterReleaseAddr, State.teardownBus] <;> rfl

/-- RELB's answer decides bit 1 of the mask, and TEARDOWN ends. -/
theorem run_releaseBus (m : Word) (ds : List Draw) :
    (s.issue cmd (.releaseBus m) k).run (d :: ds) =
      (((s.logged [⟨.relb, d.answer .relb⟩]).setHeld { s.held with bus := false }).finishTeardown
        (if d.isOk then m else m ||| 2#32)).setDraws ds := by
  cases d <;> exact run_of_after_respond rfl ds

end Teardown

/-- What TEARDOWN issues (R128). -/
def Held.releases (h : Held) : List Request := (if h.addr then [.rela] else []) ++ (if h.bus then [.relb] else [])

/-- The mask of the releases that failed (R127). -/
def failedReleases (entries : List Transaction) : Word :=
  (if (⟨.rela, .err⟩ : Transaction) ∈ entries then 1#32 else 0#32) +
    (if (⟨.relb, .err⟩ : Transaction) ∈ entries then 2#32 else 0#32)

theorem failedReleases_rela (d : Draw) :
    failedReleases [⟨.rela, d.answer .rela⟩] = if d.isOk then 0#32 else 1#32 := by
  cases d <;> simp [failedReleases, Draw.isOk]

theorem failedReleases_relb (d : Draw) :
    failedReleases [⟨.relb, d.answer .relb⟩] = if d.isOk then 0#32 else 0#32 ||| 2#32 := by
  cases d <;> simp [failedReleases, Draw.isOk]

theorem failedReleases_both (d e : Draw) :
    failedReleases [⟨.rela, d.answer .rela⟩, ⟨.relb, e.answer .relb⟩] =
      if e.isOk then (if d.isOk then 0#32 else 1#32) else (if d.isOk then 0#32 else 1#32) ||| 2#32 := by
  cases d <;> cases e <;> simp [failedReleases, Draw.isOk]

/-- The end of TEARDOWN, as an update of the state it began in. -/
theorem finishTeardown_logged_of_idle {s : State} (h : s.seq = .idle) (e : List Transaction) (m : Word)
    (ds : List Draw) :
    (((s.logged e).setHeld .none).finishTeardown m).setDraws ds =
      { s with
        draws := ds
        state := .uninitialized
        held := .none
        log := s.log ++ e
        responses := s.responses ++ [⟨.ok, m⟩] } :=
  State.ext rfl rfl rfl rfl rfl rfl rfl rfl h.symm rfl rfl rfl rfl

theorem beginTeardown_draws (s : State) (cmd : Word) : (s.beginTeardown cmd).draws = s.draws := by
  unfold State.beginTeardown State.teardownBus
  split
  · rfl
  · split <;> rfl

/-- TEARDOWN's run, for each of the four values of HELD. -/
theorem run_beginTeardown (s : State) (cmd : Word) (used rest : List Draw)
    (hlen : used.length = s.held.releases.length) :
    (s.beginTeardown cmd).run (used ++ rest) =
      (((s.logged (answeredBy s.held.releases used)).setHeld .none).finishTeardown
        (failedReleases (answeredBy s.held.releases used))).setDraws rest := by
  revert hlen
  rcases hh : s.held with ⟨_ | _, _ | _⟩ <;> intro hlen
  · obtain rfl := List.length_eq_zero_iff.mp hlen
    have hbegin : s.beginTeardown cmd = s.finishTeardown 0#32 := by
      simp only [State.beginTeardown, State.teardownBus, hh, Bool.false_eq_true, if_false]
    rw [hbegin, run_finishTeardown]
    exact State.ext rfl hh rfl rfl rfl rfl rfl rfl rfl (List.append_nil _).symm rfl rfl rfl
  · obtain ⟨d, rfl⟩ := List.length_eq_one_iff.mp hlen
    have hbegin : s.beginTeardown cmd = s.issue cmd .releaseAddr 1 := if_pos (by rw [hh])
    rw [hbegin, List.singleton_append, run_releaseAddr, ← failedReleases_rela, hh]
    simp only [State.teardownBus, State.setHeld_held, Bool.false_eq_true, if_false, run_finishTeardown]
    rfl
  · obtain ⟨d, rfl⟩ := List.length_eq_one_iff.mp hlen
    have hbegin : s.beginTeardown cmd = s.issue cmd (.releaseBus 0#32) 1 := by
      simp only [State.beginTeardown, State.teardownBus, hh, Bool.false_eq_true, if_false, if_true]
    rw [hbegin, List.singleton_append, run_releaseBus, ← failedReleases_relb, hh]
    rfl
  · obtain ⟨d, e, rfl⟩ := List.length_eq_two.mp hlen
    have hbegin : s.beginTeardown cmd = s.issue cmd .releaseAddr 1 := if_pos (by rw [hh])
    rw [hbegin, List.cons_append, List.singleton_append, run_releaseAddr, hh]
    simp only [State.teardownBus, State.setHeld_held, if_true]
    rw [run_releaseBus, ← failedReleases_both]
    refine congrArg (State.setDraws · rest) (State.ext rfl rfl rfl rfl rfl rfl rfl rfl rfl ?_ rfl rfl rfl)
    exact List.append_assoc ..

/-- Settles O30: the run, for each value of HELD, and then the end of TEARDOWN as an update of its first state. -/
theorem teardownReleasesExactlyWhatIsHeld : Obligations.TeardownReleasesExactlyWhatIsHeld := by
  unfold Obligations.TeardownReleasesExactlyWhatIsHeld
  intro s used rest hidle hd addrPlan busPlan hlen
  rw [exec, execTeardown, State.settle, beginTeardown_draws, hd, run_beginTeardown s _ used rest hlen,
    finishTeardown_logged_of_idle hidle]
  rfl

end Sys2Proof.Machine

namespace Sys2Proof.Machine

/-! ### The QUERY commands end as MEASURE does (42_measure.md R141-R145) -/

/-- The end of a fetch, as an update of the state it began in: the response alone depends on the report. -/
theorem finishFetch_logged_of_idle {s : State} (h : s.seq = .idle) (e : List Transaction) (rep : Report)
    (snapshot : RawChannels) (ds : List Draw) :
    ((s.logged e).finishFetch rep snapshot).setDraws ds =
      { s with
        draws := ds
        raw := snapshot
        q := snapshot.quotients
        n := snapshot.quotients.saturated
        ovf := snapshot.quotients.flags
        log := s.log ++ e
        responses := s.responses ++ [⟨.ok, rep.data ((s.logged e).setRaw snapshot).divide⟩] } :=
  State.ext rfl rfl rfl rfl rfl rfl rfl rfl h.symm rfl rfl rfl rfl

/-- MEASURE and the QUERY commands in Configured, when the transport answers the whole plan. -/
theorem measureAs_of_fetch_ok {s : State} {used rest : List Draw} (hst : s.state = .configured)
    (hd : s.draws = used ++ rest) (hok : ∀ d ∈ used, d.isOk = true)
    (hlen : used.length = (fetchPlan s.burst s.w16).length) (i : Instr) (rep : Report) :
    let entries := answeredBy (fetchPlan s.burst s.w16) used
    s.measureAs i rep = ((s.logged entries).finishFetch rep (snapshotOf (bytesOf entries))).setDraws rest := by
  obtain ⟨bs, rfl⟩ := exists_map_ok used hok
  obtain ⟨-, hrun⟩ := run_fetch_ok s (encode i) rep bs rest ((List.length_map _).symm.trans hlen)
  rw [measureAs_eq, if_pos hst, State.settle, State.issue_draws, hd]
  exact hrun

/-- Settles O32: the fetch and its end are the same for the three reports, whose DATA is each one component. -/
theorem queriesAnswerOneComponent : Obligations.QueriesAnswerOneComponent := by
  unfold Obligations.QueriesAnswerOneComponent
  intro s used rest hidle hst hd hok plan hlen snapshot colour result
  have ends (i : Instr) (rep : Report) :=
    (measureAs_of_fetch_ok hst hd hok hlen i rep).trans (finishFetch_logged_of_idle hidle _ rep snapshot rest)
  exact ⟨congrArg _ (ends .queryr .queryRed), congrArg _ (ends .queryg .queryGreen),
    congrArg _ (ends .queryb .queryBlue)⟩

/-! ### Refusals come before the first transaction (60_exceptions.md R205, R206) -/

/-- The statuses that refuse a command in a state that does not admit it (R205). -/
abbrev Status.refuses (st : Status) : Prop := st = .stateError ∨ st = .notConfiguredError

/-- From `s` to `t` the block has refused no command. -/
def RefusesNothing (s t : State) : Prop :=
  ∃ new, t.responses = s.responses ++ new ∧ ∀ r ∈ new, ¬ r.status.refuses

theorem RefusesNothing.of_responses_eq {s t : State} (h : t.responses = s.responses) : RefusesNothing s t :=
  ⟨[], by rw [h, List.append_nil], nofun⟩

theorem RefusesNothing.respond {s u : State} (hu : u.responses = s.responses) {st : Status} (hst : ¬ st.refuses)
    (v : Word) : RefusesNothing s (u.respond st v) :=
  ⟨[⟨st, v⟩], congrArg (· ++ _) hu, fun _ hr => List.mem_singleton.mp hr ▸ hst⟩

theorem RefusesNothing.trans {s u t : State} (h : RefusesNothing s u) (h' : RefusesNothing u t) :
    RefusesNothing s t := by
  obtain ⟨new, hu, hnew⟩ := h
  obtain ⟨new', ht, hnew'⟩ := h'
  refine ⟨new ++ new', by rw [ht, hu, List.append_assoc], fun r hr => ?_⟩
  exact (List.mem_append.mp hr).elim (hnew r) (hnew' r)

theorem RefusesNothing.responses_ne {s t : State} (h : RefusesNothing s t) {r : Response} (hr : r.status.refuses) :
    t.responses ≠ s.responses ++ [r] := by
  obtain ⟨new, ht, hnew⟩ := h
  intro heq
  obtain rfl : new = [r] := List.append_cancel_left (ht.symm.trans heq)
  exact hnew r (List.mem_singleton_self r) hr

theorem byteReadError_refusesNothing (s : State) (k : Nat) : RefusesNothing s (s.byteReadError k) := by
  rw [byteReadError_eq]
  exact .respond rfl (by decide) _

theorem deliver16_refusesNothing (s : State) (cmd : Word) (use : Use16) (v : Half) (k : Nat) :
    RefusesNothing s (s.deliver16 cmd use v k) := by
  cases use with
  | rd16 | blue => exact .respond rfl (by decide) _
  | clear | red | green => exact .of_responses_eq (beginRead16_responses ..)

theorem teardownBus_refusesNothing (s : State) (cmd m : Word) (k : Nat) :
    RefusesNothing s (s.teardownBus cmd m k) := by
  unfold State.teardownBus
  split
  · exact .of_responses_eq rfl
  · exact .respond rfl (by decide) _

/-- No answer makes its command end in a refusal. -/
theorem after_refusesNothing (s : State) (cmd : Word) (p : Wait) (k : Nat) (d : Draw) :
    RefusesNothing s (s.after cmd p k d) := by
  cases d with
  | err =>
    cases p with
    | readByte | lowByte | highByte => exact byteReadError_refusesNothing s k
    | claim => exact .of_responses_eq rfl
    | releaseAddr => exact teardownBus_refusesNothing (s.setHeld _) ..
    | writeByte | nativeWord | readBlock | burst | acquire | rollback | configWrite | releaseBus =>
      exact .respond rfl (by decide) _
  | ok b =>
    cases p with
    | lowByte | acquire => exact .of_responses_eq rfl
    | highByte | nativeWord => exact deliver16_refusesNothing ..
    | configWrite step =>
      cases step with
      | powerOn | adcEnable | integration => exact .of_responses_eq rfl
      | gain => exact .respond rfl (by decide) _
    | releaseAddr => exact teardownBus_refusesNothing (s.setHeld _) ..
    | writeByte | readByte | readBlock | burst | claim | rollback | releaseBus => exact .respond rfl (by decide) _

/-- By induction on the answers: a command that has issued a transaction is not refused any more. -/
theorem run_refusesNothing (s : State) (ds : List Draw) : RefusesNothing s (s.run ds) := by
  induction ds generalizing s with
  | nil => exact .of_responses_eq rfl
  | cons d ds ih =>
    cases h : s.seq with
    | idle =>
      rw [run_idle h]
      exact .of_responses_eq rfl
    | busy cmd p k =>
      rw [run_busy h]
      exact RefusesNothing.trans (after_refusesNothing (s.record p.request d) cmd p k d) (ih _)

section Admitted
variable {s : State} {i : Instr}

/-- An admitted command that issues no transaction is one that any state admits, and none of these refuses. -/
theorem immediate_refusesNothing (hwf : i.wellFormed = true) (hadm : admission i s.state = .admitted)
    (hp : firstWait i s = none) : RefusesNothing s (immediate i s) := by
  cases i with
  | wrreg | rd8 =>
    have hopen : s.handleOpen = true :=
      (handleOpen_iff s).mpr (by simpa [admission, or_iff_not_imp_left] using hadm)
    cases (if_pos hopen).symm.trans hp
  | rd16 | rdblk =>
    have hopen : s.handleOpen = true :=
      (handleOpen_iff s).mpr (by simpa [admission, or_iff_not_imp_left] using hadm)
    cases (if_pos ⟨of_decide_eq_true hwf, hopen⟩).symm.trans hp
  | openBus =>
    have hst : s.state = .uninitialized := by simpa [admission] using hadm
    cases (if_pos hst).symm.trans hp
  | config | configd =>
    have hst : s.state = .busOpen := by simpa [admission] using hadm
    cases (if_pos hst).symm.trans hp
  | measure | queryr | queryg | queryb =>
    have hst : s.state = .configured := by simpa [admission] using hadm
    cases (if_pos hst).symm.trans hp
  | teardown | ldraw | norm | setctrl => exact .respond rfl (by decide) _
  | getr =>
    simp only [immediate]
    split <;> exact .respond rfl (by decide) _

theorem exec_refusesNothing_of_admitted {t : State} (hwf : i.wellFormed = true)
    (hadm : admission i s.state = .admitted) (h : exec i s = .next t) : RefusesNothing s t := by
  cases hp : firstWait i s with
  | some p =>
    obtain rfl := Host.Outcome.next.inj ((exec_of_firstWait hp).symm.trans h)
    exact run_refusesNothing (s.issue (encode i) p 1) s.draws
  | none =>
    rw [exec_eq, hp] at h
    obtain rfl := Host.Outcome.next.inj h
    exact immediate_refusesNothing hwf hadm hp

end Admitted

/-- Settles O25: what the table refuses is refused before any transaction, and what it admits no answer refuses. -/
theorem admissionFollowsTheTable : Obligations.AdmissionFollowsTheTable := by
  unfold Obligations.AdmissionFollowsTheTable
  intro s t i hidle hwf h
  refine ⟨fun hadm => ?_, fun hadm => ?_, fun hadm data => ?_⟩
  · obtain rfl := Host.Outcome.next.inj ((exec_of_refusedStateError hwf hadm).symm.trans h)
    exact respond_of_idle hidle _ _
  · obtain rfl := Host.Outcome.next.inj ((exec_of_refusedNotConfigured hadm).symm.trans h)
    exact respond_of_idle hidle _ _
  · have hnone := exec_refusesNothing_of_admitted hwf hadm h
    exact ⟨hnone.responses_ne (.inl rfl), hnone.responses_ne (.inr rfl)⟩

end Sys2Proof.Machine

namespace Sys2Proof.Machine

/-! ### The divider (43_divider.md R160-R164) -/

theorem saturate_toNat_of_le {q : BitVec 24} (h : q.toNat ≤ 255) : (saturate q).toNat = q.toNat := by
  rw [saturate_toNat, min_eq_left h]

theorem saturate_toNat_of_ge {q : BitVec 24} (h : 255 ≤ q.toNat) : (saturate q).toNat = 255 := by
  rw [saturate_toNat, min_eq_right h]

theorem overflows_of_le {q : BitVec 24} (h : q.toNat ≤ 255) : overflows q = false :=
  decide_eq_false h.not_gt

theorem saturate_mono {q q' : BitVec 24} (h : q.toNat ≤ q'.toNat) : (saturate q).toNat ≤ (saturate q').toNat := by
  rw [saturate_toNat, saturate_toNat]
  exact min_le_min_right 255 h

theorem saturate_quotient_toNat (c raw : Half) :
    (saturate (quotient c raw)).toNat = min (if c.toNat = 0 then 0 else raw.toNat * 255 / c.toNat) 255 := by
  rw [saturate_toNat, quotient_toNat]

theorem overflows_quotient (c raw : Half) :
    overflows (quotient c raw) = decide ((if c.toNat = 0 then 0 else raw.toNat * 255 / c.toNat) > 255) := by
  rw [overflows, quotient_toNat]

/-- Settles O35: channel by channel, what the quotient, its saturation and its flag are as naturals. -/
theorem divideComputesTheFloorOfTheRatio : Obligations.DivideComputesTheFloorOfTheRatio := by
  unfold Obligations.DivideComputesTheFloorOfTheRatio
  intro s
  obtain ⟨hred, hgreen, hblue⟩ := flags_getLsbD s.raw.quotients
  exact ⟨rfl,
    ⟨quotient_toNat .., quotient_toNat .., quotient_toNat ..⟩,
    ⟨saturate_quotient_toNat .., saturate_quotient_toNat .., saturate_quotient_toNat ..⟩,
    ⟨hred.trans (overflows_quotient ..), hgreen.trans (overflows_quotient ..), hblue.trans (overflows_quotient ..)⟩⟩

theorem quotients_of_clear_zero {r : RawChannels} (h : r.clear = 0#16) : r.quotients = ⟨0#24, 0#24, 0#24⟩ := by
  simp [RawChannels.quotients, h]

/-- Settles O36: under the guard the three quotients are 0, and N and OVF are functions of them. -/
theorem zeroClearGivesZero : Obligations.ZeroClearGivesZero := by
  unfold Obligations.ZeroClearGivesZero
  intro s h
  rw [State.divide_q, State.divide_n, State.divide_ovf, quotients_of_clear_zero h]
  decide

theorem quotient_toNat_mono (c : Half) {raw raw' : Half} (h : raw.toNat ≤ raw'.toNat) :
    (quotient c raw).toNat ≤ (quotient c raw').toNat := by
  rw [quotient_toNat, quotient_toNat]
  split
  · exact le_rfl
  · exact Nat.div_le_div_right (Nat.mul_le_mul_right 255 h)

section NonzeroClear
variable {c : Half} (hc : 0 < c.toNat)
include hc

theorem quotient_toNat_of_clear_pos (raw : Half) : (quotient c raw).toNat = raw.toNat * 255 / c.toNat := by
  rw [quotient_toNat, if_neg hc.ne']

theorem quotient_toNat_self : (quotient c c).toNat = 255 := by
  rw [quotient_toNat_of_clear_pos hc, Nat.mul_div_cancel_left 255 hc]

/-- The quotient is the floor of the ratio: multiplied back, it brackets `raw × 255`. -/
theorem quotient_toNat_floor (raw : Half) :
    (quotient c raw).toNat * c.toNat ≤ raw.toNat * 255 ∧ raw.toNat * 255 < ((quotient c raw).toNat + 1) * c.toNat := by
  rw [quotient_toNat_of_clear_pos hc]
  exact ⟨Nat.div_mul_le_self .., Nat.lt_mul_of_div_lt (Nat.lt_succ_self _) hc⟩

end NonzeroClear

/-- Settles O37: the quotient is monotone and is 255 where raw = c, so raw below or above c puts it on that side of 255. -/
theorem dividerProperties : Obligations.DividerProperties := by
  unfold Obligations.DividerProperties
  intro c raw raw'
  refine ⟨fun hc => ?zeroClear, fun hc hraw => ?equal, fun hc hraw => ?zeroRaw, fun hc hle => ?below,
    fun hc hlt => ?above, fun hle => ?monotone, fun hc => quotient_toNat_floor hc raw⟩
  case zeroClear =>
    have hQ : (quotient c raw).toNat = 0 := by rw [quotient_toNat, if_pos hc]
    have hle := hQ.trans_le (Nat.zero_le 255)
    exact ⟨(saturate_toNat_of_le hle).trans hQ, hQ, overflows_of_le hle⟩
  case equal =>
    subst hraw
    have hQ := quotient_toNat_self hc
    exact ⟨hQ, saturate_toNat_of_ge hQ.ge, overflows_of_le hQ.le⟩
  case zeroRaw =>
    have hQ : (quotient c raw).toNat = 0 := by
      rw [quotient_toNat_of_clear_pos hc, hraw, Nat.zero_mul, Nat.zero_div]
    exact ⟨hQ, (saturate_toNat_of_le (hQ.trans_le (Nat.zero_le 255))).trans hQ⟩
  case below =>
    have hQ : (quotient c raw).toNat ≤ 255 := (quotient_toNat_mono c hle).trans_eq (quotient_toNat_self hc)
    exact ⟨hQ, saturate_toNat_of_le hQ, overflows_of_le hQ⟩
  case above =>
    have hQ : 255 ≤ (quotient c raw).toNat := (quotient_toNat_self hc).ge.trans (quotient_toNat_mono c hlt.le)
    exact ⟨hQ, saturate_toNat_of_ge hQ, overflows_eq_true_iff _⟩
  case monotone =>
    have hQ := quotient_toNat_mono c hle
    exact ⟨hQ, saturate_mono hQ⟩

end Sys2Proof.Machine

namespace Sys2Proof.Machine

/-! ### Reset and the wait of the sequencer (70_reset_and_hazards.md R220-R222, R228, R229) -/

theorem step_of_idle_no_command {s : State} (h : s.seq = .idle) (hw : s.commands = []) : step s = .next s := by
  simp only [step, h, State.takeCommand, hw]

/-- A busy block to which no answer comes waits: its run goes through no answer (log entry 8). -/
theorem step_of_busy_silent {s : State} {cmd : Word} {p : Wait} {k : Nat} (h : s.seq = .busy cmd p k)
    (hd : s.draws = []) : step s = .next s := by
  rw [step_of_busy h, settle_silent hd]

/-- A state in which the block waits is never left. -/
theorem core_run_of_step_self {s : State} (h : step s = .next s) (n : Nat) : core.run n s = .next s := by
  have hstep : core.step s = .next s := h
  induction n with
  | zero => rfl
  | succ n ih => simp only [Host.Core.run, hstep, ih]

/-- Settles O12: the silent busy block's step leaves the state as it is, and so does every number of steps. -/
theorem silentTransportLeavesTheBlockBusyForEver : Obligations.SilentTransportLeavesTheBlockBusyForEver := by
  unfold Obligations.SilentTransportLeavesTheBlockBusyForEver
  intro s cmd p k hbusy hd n
  exact core_run_of_step_self (step_of_busy_silent hbusy hd) n

/-- Settles O10. -/
theorem idleBlockWaitsForACommand : Obligations.IdleBlockWaitsForACommand := by
  unfold Obligations.IdleBlockWaitsForACommand
  intro s hidle hw
  exact step_of_idle_no_command hidle hw

/-- Settles O16: the fields of the reset state are the table's rows; BLKBUF's is read entry by entry. -/
theorem resetValues : Obligations.ResetValues := by
  unfold Obligations.ResetValues
  refine ⟨rfl, rfl, rfl, rfl, rfl, rfl, rfl, fun i => ?blkbuf, rfl, rfl⟩
  case blkbuf => exact Vector.getElem_replicate i.isLt

/-- Settles O17: power-on takes each register from the reset state and only the scripts of host and transport from the
old one. -/
theorem powerOnForgetsWithoutATransaction : Obligations.PowerOnForgetsWithoutATransaction := by
  unfold Obligations.PowerOnForgetsWithoutATransaction
  intro s
  exact ⟨rfl, rfl, rfl, rfl, rfl, rfl, rfl, rfl, rfl, rfl, rfl⟩

end Sys2Proof.Machine
